-- ==== Sys2Proof/Word.lean ====
section
/-! DEFINITION. The word types of the block (00_scope.md R13, R14; 20_memory.md R61; 30_encoding.md R70). -/

namespace Sys2Proof

/-- A byte, bits 7 (most significant) down to 0 (R13). -/
abbrev Byte := BitVec 8

/-- Half a byte, what one strobe latches (R61). -/
abbrev Nibble := BitVec 4

/-- A command word: `K` at bit 8, the payload `P` in bits 7..0 (R70). -/
abbrev CommandWord := BitVec 9

/-- A GPIO line number, a natural number (R51, D23). -/
abbrev Line := Nat

/-- A duration in microseconds (R10). -/
abbrev Micros := Nat

/-- The device path DEV, an opaque identifier (R12). -/
abbrev Device := Nat

end Sys2Proof
end

