-- ==== Sys2Proof/Syntax.lean ====
section
/-! DEFINITION. The instructions: one constructor per row of spec/opcode_table.json. The ten rows of format `cw9`
are the command words a host offers (30_encoding.md R72, R73); the eight rows of format `lcd8` are the controller
bytes the block emits (R80). -/

namespace Sys2Proof

inductive Instr where
  /-- RESET, `0x100` (R120). -/
  | reset
  /-- CLEAR, `0x101` (R121). -/
  | clear
  /-- BACKSPACE, mnemonic BKSP, `0x102` (R122). -/
  | bksp
  /-- NEWLINE, mnemonic NL, `0x103` (R123). -/
  | nl
  /-- CARRIAGE_RETURN, mnemonic CR, `0x104` (R124). -/
  | cr
  /-- HOME, `0x105` (R125). -/
  | home
  /-- TAB, `0x106` (R126). -/
  | tab
  /-- FLASH, `0x107` (R127). -/
  | flash
  /-- CHAR c, `0x000 | c` (R128). -/
  | char (c : Byte)
  /-- UNKNOWN P, mnemonic UNK, `0x100 | P` with P in 0x08..0xFF (R129). -/
  | unk (p : Byte)
  /-- CLEAR_DISPLAY, emitted byte 0x01 (R80). -/
  | clearDisplay
  /-- RETURN_HOME, emitted byte 0x02 (R80). -/
  | returnHome
  /-- ENTRY_MODE_INC, emitted byte 0x06 (R80). -/
  | entryModeInc
  /-- DISPLAY_OFF, emitted byte 0x08 (R80). -/
  | displayOff
  /-- DISPLAY_ON, emitted byte `000011CB`: C the cursor bit, B the blink bit (R81). -/
  | displayOn (c b : Bool)
  /-- CURSOR_LEFT, emitted byte 0x10 (R80). -/
  | cursorLeft
  /-- FUNCTION_SET, emitted byte `0010NF00`: N more than one line, F the large font (R82). -/
  | functionSet (n f : Bool)
  /-- SET_DDRAM, emitted byte `1aaaaaaa` (R83). -/
  | setDdram (a : BitVec 7)
deriving DecidableEq, Repr

/-- An encoded instruction in one of the two formats of the opcode table (R87). -/
inductive Encoded where
  /-- a 9-bit command word, the block's input -/
  | cw9 (w : CommandWord)
  /-- an emitted controller byte, the block's output with RS = 0 -/
  | lcd8 (b : Byte)
deriving DecidableEq, Repr

/-- Why the decoder rejects bits. No command word is ever rejected (R75). -/
inductive DecodeError where
  /-- a controller byte the block never emits (R86) -/
  | neverEmitted (b : Byte)
  /-- a number that does not fit the format's word -/
  | tooWide (w : Nat)
deriving DecidableEq, Repr

end Sys2Proof
end

