-- ==== Sys2Proof/WellFormed.lean ====
section
/-! DEFINITION. Which instructions are well formed: the one operand the encoding bounds is the code of an
unrecognised command, 0x08..0xFF (30_encoding.md R72, R77). -/

namespace Sys2Proof

/-- Well-formedness of an instruction. Codes 0x00..0x07 are the eight named commands, so an UNK with such a code
has no word of its own (R87). Every other operand may take every value of its width. -/
def Instr.wellFormed : Instr → Bool
  | .unk p => decide (8 ≤ p.toNat)
  | .reset => true
  | .clear => true
  | .bksp => true
  | .nl => true
  | .cr => true
  | .home => true
  | .tab => true
  | .flash => true
  | .char _ => true
  | .clearDisplay => true
  | .returnHome => true
  | .entryModeInc => true
  | .displayOff => true
  | .displayOn _ _ => true
  | .cursorLeft => true
  | .functionSet _ _ => true
  | .setDdram _ => true

/-- The instruction is a command word of the host (format `cw9`), not an emitted byte (format `lcd8`). -/
def Instr.isCommand : Instr → Bool
  | .reset => true
  | .clear => true
  | .bksp => true
  | .nl => true
  | .cr => true
  | .home => true
  | .tab => true
  | .flash => true
  | .char _ => true
  | .unk _ => true
  | .clearDisplay => false
  | .returnHome => false
  | .entryModeInc => false
  | .displayOff => false
  | .displayOn _ _ => false
  | .cursorLeft => false
  | .functionSet _ _ => false
  | .setDdram _ => false

end Sys2Proof
end

