-- ==== Sys2Proof/Decode.lean ====
section
/-! DEFINITION. The decoder of both formats of the opcode table, total on all bits, and after it the encoder
(30_encoding.md R70 to R76, R80 to R83, R87). -/

namespace Sys2Proof

/-- The kind bit `K` of a command word (R70). -/
def cwKind (w : CommandWord) : Bool := w.getLsbD 8

/-- The payload `P` of a command word (R70). -/
def cwPayload (w : CommandWord) : Byte := w.setWidth 8

/-- The control command of a payload (R72): eight exact codes, every other code unrecognised. -/
def decodeControl (p : Byte) : Instr :=
  match p.toNat with
  | 0 => .reset
  | 1 => .clear
  | 2 => .bksp
  | 3 => .nl
  | 4 => .cr
  | 5 => .home
  | 6 => .tab
  | 7 => .flash
  | _ => .unk p

/-- Decoding of a command word, total on the 512 words (R74). -/
def decodeCommand (w : CommandWord) : Instr :=
  if cwKind w then decodeControl (cwPayload w) else .char (cwPayload w)

/-- The controller instruction an emitted byte stands for, by the rows of format `lcd8` (R80, R81, R82, R83). The
block writes no other instruction byte (R86), so any other is rejected by name. -/
def decodeController (b : Byte) : Except DecodeError Instr :=
  if b.getLsbD 7 then .ok (.setDdram (b.setWidth 7))
  else if b &&& 0xF3#8 = 0x20#8 then .ok (.functionSet (b.getLsbD 3) (b.getLsbD 2))
  else if b &&& 0xFC#8 = 0x0C#8 then .ok (.displayOn (b.getLsbD 1) (b.getLsbD 0))
  else if b = 0x01#8 then .ok .clearDisplay
  else if b = 0x02#8 then .ok .returnHome
  else if b = 0x06#8 then .ok .entryModeInc
  else if b = 0x08#8 then .ok .displayOff
  else if b = 0x10#8 then .ok .cursorLeft
  else .error (.neverEmitted b)

/-- The decoder over both formats. -/
def decode : Encoded → Except DecodeError Instr
  | .cw9 w => .ok (decodeCommand w)
  | .lcd8 b => decodeController b

/-- The format a row of the opcode table has, from the number of bits it gives the row in whole bytes, and the word
of that format: 8 bits for `lcd8`, more for `cw9` (log 17). -/
def readTableWord (nbits w : Nat) : Except DecodeError Encoded :=
  if nbits ≤ 8 then
    if w < 256 then .ok (.lcd8 (BitVec.ofNat 8 w)) else .error (.tooWide w)
  else
    if w < 512 then .ok (.cw9 (BitVec.ofNat 9 w)) else .error (.tooWide w)

/-- The instruction the decoder reads from a word numbered as the opcode table numbers it. -/
def decodeTableWord (nbits w : Nat) : Option Instr :=
  match readTableWord nbits w with
  | .ok e =>
    match decode e with
    | .ok i => some i
    | .error _ => none
  | .error _ => none

/-- A command word put together from `K` and `P` (R70). -/
def packCommand (k : Bool) (p : Byte) : CommandWord := BitVec.ofBool k ++ p

/-- One bit as a byte's bit at the given place. -/
def bitAt (v : Bool) (place : Nat) : Byte := (BitVec.ofBool v).setWidth 8 <<< place

/-- The encoder, from the rows of the opcode table (R72, R73, R80 to R83). -/
def encode : Instr → Encoded
  | .reset => .cw9 (packCommand true 0x00#8)
  | .clear => .cw9 (packCommand true 0x01#8)
  | .bksp => .cw9 (packCommand true 0x02#8)
  | .nl => .cw9 (packCommand true 0x03#8)
  | .cr => .cw9 (packCommand true 0x04#8)
  | .home => .cw9 (packCommand true 0x05#8)
  | .tab => .cw9 (packCommand true 0x06#8)
  | .flash => .cw9 (packCommand true 0x07#8)
  | .char c => .cw9 (packCommand false c)
  | .unk p => .cw9 (packCommand true p)
  | .clearDisplay => .lcd8 0x01#8
  | .returnHome => .lcd8 0x02#8
  | .entryModeInc => .lcd8 0x06#8
  | .displayOff => .lcd8 0x08#8
  | .displayOn c b => .lcd8 (0x0C#8 ||| bitAt c 1 ||| bitAt b 0)
  | .cursorLeft => .lcd8 0x10#8
  | .functionSet n f => .lcd8 (0x20#8 ||| bitAt n 3 ||| bitAt f 2)
  | .setDdram a => .lcd8 (0x80#8 ||| a.setWidth 8)

end Sys2Proof
end

