-- ==== Sys2Proof/Config.lean ====
section
/-! DEFINITION. What an implementation fixes (00_scope.md R8 to R12), the two records INITIALIZE samples
(10_state.md R20, R22), and the one free value of the model: the GPIO device's answers (60_exceptions.md R171,
R172; 93_implementation_defined.md I1). -/

namespace Sys2Proof

/-- The timing parameters, in microseconds (R10). -/
structure Timing where
  /-- T_SETUP: wait after driving a nibble, before the strobe -/
  setup : Micros
  /-- T_STROBE: time E is held high -/
  strobe : Micros
  /-- T_HOLD: wait after the strobe -/
  hold : Micros
  /-- T_FS: after each function set of RESET -/
  functionSet : Micros
  /-- T_CTL: after display-off, display-on and entry-mode of RESET -/
  control : Micros
  /-- T_CLR: after clear-display -/
  clear : Micros
  /-- T_HOME: after return-home -/
  home : Micros
  /-- T_FLASH: dwell of each FLASH write -/
  flash : Micros
deriving DecidableEq, Repr

/-- One entry of `LCD_OP.FUNCTION_SET_SEQ` (D9). -/
inductive FunctionSetEntry where
  /-- FUNCTION_SET assembled from the configuration (R82) -/
  | configured
  /-- another byte, as an override of the parameter may name -/
  | fixed (b : Byte)
deriving DecidableEq, Repr

/-- The emitted instruction byte table `LCD_OP` (R12, R80, D10). -/
structure LcdOp where
  clearDisplay : Byte
  returnHome : Byte
  entryModeInc : Byte
  displayOff : Byte
  /-- DISPLAY_ON with its C and B bits clear -/
  displayOnBase : Byte
  cursorLeft : Byte
  /-- FUNCTION_SET with its N and F bits clear -/
  functionSetBase : Byte
  /-- SET_DDRAM with an address of zero -/
  setDdramBase : Byte
  /-- FUNCTION_SET_SEQ, the bytes RESET sends first -/
  functionSetSeq : List FunctionSetEntry
deriving DecidableEq, Repr

/-- The named parameters of the block (R10, R11, R12). -/
structure Params where
  timing : Timing
  /-- T_POWERON (D25) -/
  tPowerOn : Micros
  /-- BANK2_OFFSET (R11) -/
  bank2Offset : Nat
  /-- DDRAM_CAPACITY (R11) -/
  ddramCapacity : Nat
  /-- TAB_STOP (R11) -/
  tabStop : Nat
  /-- SPACE, the character TAB writes (R11) -/
  space : Byte
  lcdOp : LcdOp
  /-- PIN_W, the width of a line number; `none` where it is left open (D23) -/
  pinW : Option Nat
deriving DecidableEq, Repr

/-- DisplayConfig (R8, R20). The naturals are as INITIALIZE is given them; validity is a check of INITIALIZE. -/
structure DisplayConfig where
  /-- LINES -/
  lines : Nat
  /-- COLS -/
  cols : Nat
  /-- WIDTH -/
  width : Nat
  /-- CURSOR_EN -/
  cursorEn : Bool
  /-- BLINK_EN -/
  blinkEn : Bool
  /-- LARGE_FONT -/
  largeFont : Bool
  /-- BL_DEFAULT_ON -/
  blDefaultOn : Bool
deriving DecidableEq, Repr

/-- PinMap (R9, R22): the lines named one by one; `none` is *unbound*. DAT1..DAT3 follow DAT0. -/
structure PinMap where
  /-- RS -/
  regSel : Option Line
  /-- RW -/
  readWrite : Option Line
  /-- E -/
  enable : Option Line
  /-- BL -/
  backlight : Option Line
  /-- DAT0 -/
  dat0 : Option Line
deriving DecidableEq, Repr

/-- The roles of a pin map (R22). -/
inductive Role where
  | regSel | readWrite | enable | backlight | dat0 | dat1 | dat2 | dat3
deriving DecidableEq, Repr

/-- The GPIO device's answer to OPEN, CFG or SET (R171, R172). -/
inductive Answer where
  | ok
  | fail
deriving DecidableEq, Repr, Inhabited

/-- FREE VALUE (I1, R171, R172): the answer the GPIO device gives to the n-th request that no scripted answer of
`State.answers` covers. It has no body: nothing can be proved of it but what holds for both answers (log 3). -/
opaque Config.freeAnswer : Nat → Answer

end Sys2Proof
end

