-- ==== Sys2Proof/Machine/Parameters.lean ====
section
/-! DEFINITION. The values the spec gives the parameters (00_scope.md R10 to R12; 30_encoding.md R80). -/

namespace Sys2Proof.Machine

/-- The timing values of R10. -/
def specTiming : Timing :=
  { setup := 20, strobe := 40, hold := 20, functionSet := 10000, control := 1000, clear := 2000, home := 2000,
    flash := 200000 }

/-- The default `LCD_OP` (R80, D9, D10). 0x01 and 0x80 are the source's; the others the spec takes from HD44780
general knowledge (G1). PRESUMED, unsafe: log 14. -/
def specLcdOp : LcdOp :=
  { clearDisplay := 0x01#8, returnHome := 0x02#8, entryModeInc := 0x06#8, displayOff := 0x08#8,
    displayOnBase := 0x0C#8, cursorLeft := 0x10#8, functionSetBase := 0x20#8, setDdramBase := 0x80#8,
    functionSetSeq := [.configured, .configured, .configured] }

/-- Every parameter at the value or default the spec gives it (R10, R11, R12). -/
def specParams : Params :=
  { timing := specTiming, tPowerOn := 0, bank2Offset := 0x40, ddramCapacity := 80, tabStop := 8, space := 0x20#8,
    lcdOp := specLcdOp, pinW := none }

/-- The cycles a cycle-accurate refinement clocked at `clkHz` holds a `WAIT(t)` for, at the least:
`ceil(t * CLK_HZ / 1000000)` (60_exceptions.md R180). CLK_HZ is open (D1). -/
def minWaitCycles (clkHz : Nat) (t : Micros) : Nat := (t * clkHz + 999999) / 1000000

end Sys2Proof.Machine
end

