-- ==== Sys2Proof/Machine/State.lean ====
section
/-! DEFINITION. The state of the block as plain data (10_state.md R20 to R38), the ways a step can stop, and the
power-on state (R38). -/

namespace Sys2Proof.Machine

/-- The lifecycle modes (R29). -/
inductive Mode where
  | uninit | init | idle | busy | fatal | off
deriving DecidableEq, Repr

/-- CursorState (R25, R26). -/
structure Cursor where
  row : Nat
  col : Nat
deriving DecidableEq, Repr

/-- What a fatal error records (R170). -/
inductive FatalInfo where
  /-- code 1, OPEN_ERROR, with the device path -/
  | openError (dev : Device)
  /-- code 2, CONFIG_ERROR, with the line number -/
  | configError (p : Line)
deriving DecidableEq, Repr

/-- What a warning records (R170). -/
inductive WarnInfo where
  /-- code 3, TRANSIENT_IO, with the line and the level -/
  | transientIo (p : Line) (v : Bool)
  /-- code 4, UNKNOWN_COMMAND, with the code -/
  | unknownCommand (p : Byte)
deriving DecidableEq, Repr

/-- A micro-operation of the sequencer (R19, R100 to R104). -/
inductive Micro where
  /-- OPEN(DEV) -/
  | openDev (dev : Device)
  /-- CFG(p) -/
  | cfgPin (p : Line)
  /-- SET(p, v) -/
  | setPin (p : Line) (v : Bool)
  /-- WAIT(t) -/
  | wait (t : Micros)
  /-- RELEASE -/
  | release
  /-- WARN -/
  | warn (w : WarnInfo)
  /-- FATAL -/
  | fatal (f : FatalInfo)
deriving DecidableEq, Repr

/-- An event of the trace (R33). -/
inductive Event where
  | openDev (dev : Device)
  | cfgPin (p : Line)
  | setPin (p : Line) (v : Bool)
  | wait (t : Micros)
  | release
  | warn (w : WarnInfo)
  | fatal (f : FatalInfo)
deriving DecidableEq, Repr

/-- What the host may offer the block (R155). -/
inductive HostOp where
  /-- INITIALIZE(DEV, cfg, pins) (R150) -/
  | start (dev : Device) (cfg : DisplayConfig) (pins : PinMap)
  /-- one command word (R154) -/
  | command (w : CommandWord)
  /-- SHUTDOWN (R152) -/
  | shutdown
deriving DecidableEq, Repr

/-- The state. `par` is fixed for the machine (R36); `offers`, `answers`, `draws`, `termIn` and `cut` are the
model's own, the environment's moves as plain data (log 3, 4, 5). -/
structure State where
  /-- the parameters a model takes as arguments (R12, log 1) -/
  par : Params
  /-- the lifecycle mode (R29) -/
  mode : Mode
  /-- the configuration sampled by INITIALIZE (R20) -/
  cfg : DisplayConfig
  /-- the pin map sampled by INITIALIZE (R22) -/
  pins : PinMap
  /-- the cursor (R25, R26) -/
  cur : Cursor
  /-- `cur_next`, the cursor the running command will commit (R31) -/
  curNext : Cursor
  /-- the micro-operations still to run (R30) -/
  seq : List Micro
  /-- the block holds the open GPIO device (R32) -/
  held : Bool
  /-- the recorded fatal error (R35, R174) -/
  fatalInfo : Option FatalInfo
  /-- the known output levels, lines strictly rising; a line not listed is at `U` (R34, log 10) -/
  out : List (Line × Bool)
  /-- the emitted events, oldest first (R33) -/
  trace : List Event
  /-- what the host offers, oldest first (R154, log 4) -/
  offers : List HostOp
  /-- answers the GPIO device will give, oldest first; used up, the free answers follow (R171, log 3) -/
  answers : List Answer
  /-- how many free answers have been drawn (log 3) -/
  draws : Nat
  /-- steps the block still takes before the host terminates it, if it does (R153, log 5) -/
  termIn : Option Nat
  /-- the host has terminated the block (R153) -/
  cut : Bool
deriving DecidableEq, Repr

/-- Why the machine takes no further step. Each is the end of a run the spec itself names, so stopping is safe
(log 6). -/
inductive Fault where
  /-- raised by the step after a host termination: the block takes no step afterwards (R153); safe -/
  | terminated
  /-- raised by the step in mode FATAL with nothing offered: FATAL is terminal (R176); safe -/
  | failed
  /-- raised by the step in mode OFF with nothing offered: OFF is terminal (R156); safe -/
  | released
deriving DecidableEq, Repr

/-- Why the machine has no transition. Each is a refusal the spec names (I8, I9), so refusing is safe. -/
inductive Refusal where
  /-- raised by an arm of exec for an instruction with no meaning yet; safe -/
  | notModelled (mnemonic : String)
  /-- raised by the ten commands outside IDLE: `ready = (mode = IDLE)` (R154, I9); safe -/
  | notReady (mode : Mode)
  /-- raised by the eight emitted bytes outside INIT and BUSY, where the sequencer runs nothing (R30, R87); safe -/
  | notEmitting (mode : Mode)
  /-- raised by INITIALIZE outside UNINIT (R150, R156, I9); safe -/
  | alreadyStarted (mode : Mode)
  /-- raised by INITIALIZE with a configuration outside R8 (R21, I8); safe -/
  | badConfig
  /-- raised by INITIALIZE with a pin map outside R23 (I8); safe -/
  | badPinMap
  /-- raised by SHUTDOWN outside IDLE (R152, I9); safe -/
  | notIdle (mode : Mode)
deriving DecidableEq, Repr

/-- The outcome of a step of this machine. -/
abbrev Result := Host.Outcome State Fault Refusal

/-- The configuration before INITIALIZE: unspecified and read by no rule (R20, R38). DESIGN CHOICE, unsafe: every
field zero but WIDTH, which is hardwired to 4 (log 2). -/
def DisplayConfig.unspecified : DisplayConfig :=
  { lines := 0, cols := 0, width := 4, cursorEn := false, blinkEn := false, largeFont := false, blDefaultOn := false }

/-- The pin map before INITIALIZE: unspecified and read by no rule (R22, R38). DESIGN CHOICE, unsafe: every role
unbound (log 2). -/
def PinMap.unspecified : PinMap :=
  { regSel := none, readWrite := none, enable := none, backlight := none, dat0 := none }

/-- The power-on state (R38, R200). -/
def State.reset : State :=
  { par := specParams
    mode := .uninit
    cfg := DisplayConfig.unspecified
    pins := PinMap.unspecified
    cur := { row := 0, col := 0 }
    curNext := { row := 0, col := 0 }
    seq := []
    held := false
    fatalInfo := none
    out := []
    trace := []
    offers := []
    answers := []
    draws := 0
    termIn := none
    cut := false }

end Sys2Proof.Machine
end

