-- ==== Sys2Proof/Machine/Operands.lean ====
section
/-! DEFINITION. Operand forms: the lines of a pin map, the validity INITIALIZE requires, the cursor and DDRAM
address arithmetic, and the assembly of emitted bytes (00_scope.md R8, R9; 10_state.md R21 to R26; 20_memory.md
R53, R59; 30_encoding.md R80 to R84). -/

namespace Sys2Proof.Machine

/-! ### The pin map -/

/-- The GPIO line a role is bound to, `none` where it is unbound; DAT1..DAT3 follow DAT0 (R9, R22). -/
def lineOf (pins : PinMap) : Role → Option Line
  | .regSel => pins.regSel
  | .readWrite => pins.readWrite
  | .enable => pins.enable
  | .backlight => pins.backlight
  | .dat0 => pins.dat0
  | .dat1 => pins.dat0.map (· + 1)
  | .dat2 => pins.dat0.map (· + 2)
  | .dat3 => pins.dat0.map (· + 3)

/-- The roles in the order INITIALIZE sets them up (R150, D15). -/
def roles : List Role := [.regSel, .readWrite, .enable, .backlight, .dat0, .dat1, .dat2, .dat3]

/-- Every bound line, DAT1..DAT3 included, in the order of `roles` (R23). -/
def boundLines (pins : PinMap) : List Line := roles.filterMap (lineOf pins)

/-- No line occurs twice. -/
def allDistinct : List Line → Bool
  | [] => true
  | p :: rest => !rest.contains p && allDistinct rest

/-- The line number is one of `PIN_W` bits, where `PIN_W` is fixed (R9, R51, log 13). -/
def lineFits (par : Params) (p : Line) : Bool :=
  match par.pinW with
  | none => true
  | some w => decide (p < 2 ^ w)

/-- Pin map validity (R23, D22): RS, E and DAT0 bound, all bound lines pairwise distinct, each a line number (R51). -/
def pinMapValid (par : Params) (pins : PinMap) : Bool :=
  pins.regSel.isSome && pins.enable.isSome && pins.dat0.isSome && allDistinct (boundLines pins)
    && (boundLines pins).all (lineFits par)

/-! ### The configuration -/

/-- Configuration validity (R8, R21, D35). -/
def configValid (par : Params) (cfg : DisplayConfig) : Bool :=
  (cfg.lines == 1 || cfg.lines == 2 || cfg.lines == 4) && decide (0 < cfg.cols)
    && decide (cfg.lines * cfg.cols ≤ par.ddramCapacity) && cfg.width == 4

/-! ### Cursor and address arithmetic -/

/-- The cursor's legal range: `0 <= col <= COLS` and `0 <= row < LINES` (R25, R26, R28). -/
def cursorInRange (cfg : DisplayConfig) (c : Cursor) : Bool :=
  decide (c.col ≤ cfg.cols) && decide (c.row < cfg.lines)

/-- The cursor is parked at the "off right edge" sentinel (R25, R19). -/
def parked (cfg : DisplayConfig) (c : Cursor) : Bool := c.col == cfg.cols

/-- The home position (0, 0). -/
def cursorHome : Cursor := { row := 0, col := 0 }

/-- `calc_addr(row, col)`, the DDRAM address of a cursor (R53). -/
def calcAddr (par : Params) (cfg : DisplayConfig) (c : Cursor) : Nat :=
  c.col + (if c.row = 1 ∨ c.row = 3 then par.bank2Offset else 0) + (if c.row = 2 ∨ c.row = 3 then cfg.cols else 0)

/-- `next8(c)`, the next tab stop strictly above a column (R126, D14). -/
def nextStop (par : Params) (col : Nat) : Nat := (col / par.tabStop + 1) * par.tabStop

/-- How many spaces TAB writes: up to the next tab stop, clipped to `COLS` (R126). -/
def tabCount (par : Params) (cfg : DisplayConfig) (c : Cursor) : Nat := min (nextStop par c.col) cfg.cols - c.col

/-! ### Bytes -/

/-- The upper nibble `b[7:4]` (R59). -/
def upperNibble (b : Byte) : Nibble := b.extractLsb' 4 4

/-- The lower nibble `b[3:0]` (R59). -/
def lowerNibble (b : Byte) : Nibble := b.extractLsb' 0 4

/-- One bit as a byte's bit at the given place. -/
def flagBit (v : Bool) (place : Nat) : Byte := (BitVec.ofBool v).setWidth 8 <<< place

/-- DISPLAY_ON with its C bit at 1 and its B bit at 0 (R81). -/
def displayOnByte (par : Params) (c b : Bool) : Byte := par.lcdOp.displayOnBase ||| flagBit c 1 ||| flagBit b 0

/-- FUNCTION_SET with its N bit at 3 and its F bit at 2 (R82). -/
def functionSetByte (par : Params) (n f : Bool) : Byte := par.lcdOp.functionSetBase ||| flagBit n 3 ||| flagBit f 2

/-- `SET_DDRAM(a)`: the 7-bit address zero-extended under bit 7 (R83). -/
def setDdramByte (par : Params) (a : BitVec 7) : Byte := par.lcdOp.setDdramBase ||| a.setWidth 8

/-- DISPLAY_ON of a configuration: C and B are CURSOR_EN and BLINK_EN (R81). -/
def configDisplayOn (par : Params) (cfg : DisplayConfig) : Byte := displayOnByte par cfg.cursorEn cfg.blinkEn

/-- FUNCTION_SET of a configuration: N is `LINES > 1`, F is LARGE_FONT (R82, D9). -/
def configFunctionSet (par : Params) (cfg : DisplayConfig) : Byte :=
  functionSetByte par (decide (1 < cfg.lines)) cfg.largeFont

/-- The byte of one entry of FUNCTION_SET_SEQ (D9). -/
def functionSetEntryByte (par : Params) (cfg : DisplayConfig) : FunctionSetEntry → Byte
  | .configured => configFunctionSet par cfg
  | .fixed b => b

/-- The address write of a cursor, `0x80 | calc_addr(row, col)` (R53, R83). -/
def addressByte (par : Params) (cfg : DisplayConfig) (c : Cursor) : Byte :=
  setDdramByte par (BitVec.ofNat 7 (calcAddr par cfg c))

end Sys2Proof.Machine
end

