-- ==== Sys2Proof/Machine/Ops.lean ====
section
/-! DEFINITION. The named operations on the state: the output levels (10_state.md R34), the trace (R33), the GPIO
device's answers (60_exceptions.md R171, R172), and the exceptions, warning (R173) and fatal entry (R174). There is
no return from an exception to model (R176). -/

namespace Sys2Proof.Machine

/-! ### Output levels -/

/-- The level of a line as the block last drove it: 0, 1 or U (R34). -/
inductive Level where
  | low | high | unknown
deriving DecidableEq, Repr

/-- A driven level. -/
def levelOf (v : Bool) : Level := if v then .high else .low

/-- `out[p]`: a line not listed is at `U` (R34, log 10). -/
def readLine : List (Line × Bool) → Line → Level
  | [], _ => .unknown
  | (q, v) :: rest, p => if q = p then levelOf v else readLine rest p

/-- `out[p] <- v`, lines kept strictly rising. -/
def putLine : List (Line × Bool) → Line → Bool → List (Line × Bool)
  | [], p, v => [(p, v)]
  | (q, w) :: rest, p, v =>
    if p < q then (p, v) :: (q, w) :: rest
    else if p = q then (p, v) :: rest
    else (q, w) :: putLine rest p v

/-- `out[p] <- U`: the line's entry is removed. -/
def dropLine : List (Line × Bool) → Line → List (Line × Bool)
  | [], _ => []
  | (q, w) :: rest, p => if q = p then rest else (q, w) :: dropLine rest p

/-- The canonical form of the level store: lines strictly rising. -/
abbrev linesCanonical (l : List (Line × Bool)) : Prop := l.Pairwise (fun a b => a.1 < b.1)

/-! ### The trace and the GPIO device -/

/-- `emit(e)` appends an event to the trace (R16). -/
def State.emit (s : State) (e : Event) : State := { s with trace := s.trace ++ [e] }

/-- The level of a line after an acknowledged SET (R101). -/
def State.driveLine (s : State) (p : Line) (v : Bool) : State := { s with out := putLine s.out p v }

/-- The level of a line after a failed SET: unknown (R101, R172, D19). -/
def State.loseLine (s : State) (p : Line) : State := { s with out := dropLine s.out p }

/-- `held <- v` (R104). -/
def State.setHeld (s : State) (v : Bool) : State := { s with held := v }

/-- `seq <- q` (R30). -/
def State.setSeq (s : State) (q : List Micro) : State := { s with seq := q }

/-- The answer to the next request of the GPIO device: the oldest scripted one, or else a free one (R171, R172). -/
def State.nextAnswer (s : State) : Answer :=
  match s.answers with
  | a :: _ => a
  | [] => Config.freeAnswer s.draws

/-- The answer is used up. -/
def State.dropAnswer (s : State) : State :=
  match s.answers with
  | _ :: rest => { s with answers := rest }
  | [] => { s with draws := s.draws + 1 }

/-! ### Exceptions -/

/-- `raise Warning(code, info)`: the trace event is the whole record (R173, D28). -/
def raiseWarning (w : WarnInfo) (s : State) : State := s.emit (.warn w)

/-- The release of fatal entry: only where the device is held (R174). -/
def releaseIfHeld (s : State) : State := if s.held then (s.emit .release).setHeld false else s

/-- `raise Fatal(code, info)`, fatal entry (R174, D27): the Fatal event, the release if the device is held, the rest
of `seq` discarded, the error recorded, mode FATAL. -/
def raiseFatal (f : FatalInfo) (s : State) : State :=
  { releaseIfHeld (s.emit (.fatal f)) with seq := [], fatalInfo := some f, mode := .fatal }

/-- Host termination: nothing is emitted and nothing else changes; the block takes no step afterwards (R153, D21). -/
def terminate (s : State) : State := { s with cut := true, termIn := none }

end Sys2Proof.Machine
end

