-- ==== Sys2Proof/Machine/Flags.lean ====
section
/-! DEFINITION. The block has no condition codes and no arithmetic flags (10_state.md R35). Its status is the mode
with the recorded fatal error, the numeric codes of the error classes (60_exceptions.md R170), the `ready` signal of
the handshake (42_lifecycle.md R154) and the standing of a run (R157). -/

namespace Sys2Proof.Machine

/-- The code of a fatal error: 1 OPEN_ERROR, 2 CONFIG_ERROR (R170, D18). -/
def fatalCode : FatalInfo → Nat
  | .openError _ => 1
  | .configError _ => 2

/-- The code of a warning: 3 TRANSIENT_IO, 4 UNKNOWN_COMMAND (R170, D18). -/
def warnCode : WarnInfo → Nat
  | .transientIo _ _ => 3
  | .unknownCommand _ => 4

/-- `ready = (mode = IDLE)` (R154). -/
def State.ready (s : State) : Bool := s.mode == .idle

/-- How a run stands (R157). -/
inductive RunStatus where
  | complete | failed | cut | running
deriving DecidableEq, Repr

/-- The host's operation is a command word (R155). -/
def isWordOffer : HostOp → Bool
  | .start _ _ _ => false
  | .command _ => true
  | .shutdown => false

/-- The host offers a further command word (R157): a pending SHUTDOWN or INITIALIZE is no word. -/
def State.wordOffered (s : State) : Bool := s.offers.any isWordOffer

/-- The standing of a run: failed in FATAL, complete in OFF or in IDLE with no further word offered, cut once
terminated, and else not over (R157). DESIGN CHOICE: a run that reached FATAL or OFF, or IDLE with no further word, and
is terminated after that counts as cut; R157 gives both names and no priority between them (log 22). -/
def State.runStatus (s : State) : RunStatus :=
  if s.cut then .cut
  else
    match s.mode with
    | .fatal => .failed
    | .off => .complete
    | .idle => if s.wordOffered then .running else .complete
    | .uninit => .running
    | .init => .running
    | .busy => .running

end Sys2Proof.Machine
end

