-- ==== Sys2Proof/Machine/Transport.lean ====
section
/-! DEFINITION. The pin-level transport (40_transport.md): what each micro-operation does (R100 to R104, R173, R174),
the sequencer's step (R105), and the composites STROBE (R107) and WRITE (R106) as lists of micro-operations. -/

namespace Sys2Proof.Machine

/-! ### The micro-operations -/

/-- OPEN(DEV) (R104). -/
def performOpen (dev : Device) (s : State) : State :=
  let s1 := s.emit (.openDev dev)
  match s1.nextAnswer with
  | .ok => s1.dropAnswer.setHeld true
  | .fail => raiseFatal (.openError dev) s1.dropAnswer

/-- CFG(p) (R100). -/
def performCfg (p : Line) (s : State) : State :=
  let s1 := s.emit (.cfgPin p)
  match s1.nextAnswer with
  | .ok => s1.dropAnswer
  | .fail => raiseFatal (.configError p) s1.dropAnswer

/-- SET(p, v) (R101). -/
def performSet (p : Line) (v : Bool) (s : State) : State :=
  let s1 := s.emit (.setPin p v)
  match s1.nextAnswer with
  | .ok => s1.dropAnswer.driveLine p v
  | .fail => raiseWarning (.transientIo p v) (s1.dropAnswer.loseLine p)

/-- WAIT(t): the event says that at least `t` microseconds elapse before the next micro-operation (R103, D1). -/
def performWait (t : Micros) (s : State) : State := s.emit (.wait t)

/-- RELEASE (R104). -/
def performRelease (s : State) : State := (s.emit .release).setHeld false

/-- Performs one micro-operation by its rule (R105). -/
def perform : Micro → State → State
  | .openDev dev, s => performOpen dev s
  | .cfgPin p, s => performCfg p s
  | .setPin p v, s => performSet p v s
  | .wait t, s => performWait t s
  | .release, s => performRelease s
  | .warn w, s => raiseWarning w s
  | .fatal f, s => raiseFatal f s

/-! ### The sequencer -/

/-- What happens when `seq` becomes empty: in BUSY the cursor is committed (R31, R105), in INIT it becomes (0, 0)
(R150), and the block is IDLE. In the other modes nothing happens. -/
def finishSequence (s : State) : State :=
  match s.mode with
  | .busy => { s with cur := s.curNext, mode := .idle }
  | .init => { s with cur := cursorHome, mode := .idle }
  | .uninit => s
  | .idle => s
  | .fatal => s
  | .off => s

/-- `seq` is empty: the command is complete. -/
def finishIfEmpty (s : State) : State := if s.seq.isEmpty then finishSequence s else s

/-- One step of the sequencer (R105): the head micro-operation is removed and performed. DESIGN CHOICE: with an empty
`seq`, which no run reaches in INIT or BUSY, the sequence counts as complete (log 11). -/
def runSequencer (s : State) : State :=
  match s.seq with
  | [] => finishSequence s
  | m :: rest => finishIfEmpty (perform m (s.setSeq rest))

/-! ### The composites -/

/-- SET on a role: nothing for an unbound one (R102, D7). -/
def setRole (pins : PinMap) (r : Role) (v : Bool) : List Micro :=
  match lineOf pins r with
  | some p => [.setPin p v]
  | none => []

/-- CFG on a role: nothing for an unbound one (R102, D7). -/
def cfgRole (pins : PinMap) (r : Role) : List Micro :=
  match lineOf pins r with
  | some p => [.cfgPin p]
  | none => []

/-- STROBE (R107). -/
def strobe (par : Params) (pins : PinMap) : List Micro :=
  setRole pins .enable true ++ [.wait par.timing.strobe] ++ setRole pins .enable false

/-- The four data lines driven to a nibble, DAT3 first (R59, R106, D6). -/
def driveNibble (pins : PinMap) (n : Nibble) : List Micro :=
  setRole pins .dat3 (n.getLsbD 3) ++ setRole pins .dat2 (n.getLsbD 2) ++ setRole pins .dat1 (n.getLsbD 1)
    ++ setRole pins .dat0 (n.getLsbD 0)

/-- One nibble of a WRITE: driven, then T_SETUP, STROBE, T_HOLD (R106). -/
def sendNibble (par : Params) (pins : PinMap) (n : Nibble) : List Micro :=
  driveNibble pins n ++ [.wait par.timing.setup] ++ strobe par pins ++ [.wait par.timing.hold]

/-- WRITE(rs, b), the two-nibble controller write (R106). -/
def writeMicros (par : Params) (pins : PinMap) (rs : Bool) (b : Byte) : List Micro :=
  setRole pins .readWrite false ++ setRole pins .regSel rs ++ sendNibble par pins (upperNibble b)
    ++ sendNibble par pins (lowerNibble b)

/-- An item of a command's expansion, as the rules of 41_commands.md write it. -/
inductive Item where
  /-- WRITE(rs, b) -/
  | write (rs : Bool) (b : Byte)
  /-- WAIT(t) -/
  | wait (t : Micros)
  /-- WARN -/
  | warn (w : WarnInfo)
deriving DecidableEq, Repr

/-- The micro-operations of one item. -/
def itemMicros (par : Params) (pins : PinMap) : Item → List Micro
  | .write rs b => writeMicros par pins rs b
  | .wait t => [.wait t]
  | .warn w => [.warn w]

/-- The full expansion of a list of items (R30). -/
def itemsMicros (par : Params) (pins : PinMap) (items : List Item) : List Micro := items.flatMap (itemMicros par pins)

end Sys2Proof.Machine
end

