-- ==== Sys2Proof/Machine/Commands.lean ====
section
/-! DEFINITION. The ten commands (41_commands.md R120 to R129): each rule's expansion, and its acceptance
(42_lifecycle.md R154). An expansion reads only the cursor, the configuration and the parameters (R130). -/

namespace Sys2Proof.Machine

/-- What a command's rule computes at acceptance: the items of `seq`, and the cursor to commit (R31). -/
structure Expansion where
  items : List Item
  next : Cursor
deriving DecidableEq, Repr

/-- Acceptance of a command in IDLE (R154): `seq` and `cur_next` are set and the mode is BUSY; an empty `seq`
completes in the same step (D33). Outside IDLE the block accepts nothing (I9). -/
def acceptCommand (s : State) (x : Expansion) : Result :=
  match s.mode with
  | .idle => .next (finishIfEmpty { s with seq := itemsMicros s.par s.pins x.items, curNext := x.next, mode := .busy })
  | .uninit => .refused (.notReady .uninit)
  | .init => .refused (.notReady .init)
  | .busy => .refused (.notReady .busy)
  | .fatal => .refused (.notReady .fatal)
  | .off => .refused (.notReady .off)

/-! ### Shared expansions -/

/-- CLEAR_SEQ (R121). -/
def clearItems (par : Params) : List Item := [.write false par.lcdOp.clearDisplay, .wait par.timing.clear]

/-- One display-off, display-on pair of FLASH, each with its dwell (R127, D13). -/
def flashToggle (par : Params) (cfg : DisplayConfig) : List Item :=
  [.write false par.lcdOp.displayOff, .wait par.timing.flash, .write false (configDisplayOn par cfg),
    .wait par.timing.flash]

/-- FLASH_SEQ (R127). -/
def flashItems (par : Params) (cfg : DisplayConfig) : List Item := flashToggle par cfg ++ flashToggle par cfg

/-- The function sets of RESET, each followed by T_FS (R120, D9). -/
def functionSetItems (par : Params) (cfg : DisplayConfig) : List Item :=
  par.lcdOp.functionSetSeq.flatMap fun e =>
    [.write false (functionSetEntryByte par cfg e), .wait par.timing.functionSet]

/-- The control writes of RESET, each followed by T_CTL (R120, D11). -/
def controlItems (par : Params) (cfg : DisplayConfig) : List Item :=
  [.write false par.lcdOp.displayOff, .wait par.timing.control, .write false (configDisplayOn par cfg),
    .wait par.timing.control, .write false par.lcdOp.entryModeInc, .wait par.timing.control]

/-! ### The expansion of each command -/

/-- RESET (R120). -/
def expandReset (par : Params) (cfg : DisplayConfig) : Expansion :=
  { items := functionSetItems par cfg ++ controlItems par cfg ++ clearItems par, next := cursorHome }

/-- CLEAR (R121). -/
def expandClear (par : Params) : Expansion := { items := clearItems par, next := cursorHome }

/-- BACKSPACE (R122). -/
def expandBackspace (par : Params) (cfg : DisplayConfig) (cur : Cursor) : Expansion :=
  if 0 < cur.col then
    { items := [.write false par.lcdOp.cursorLeft], next := { cur with col := cur.col - 1 } }
  else { items := flashItems par cfg, next := cur }

/-- Where NEWLINE goes: the start of the next row, or the park at the edge of the last row (R123). -/
def newlineCursor (cfg : DisplayConfig) (cur : Cursor) : Cursor :=
  if cur.row < cfg.lines - 1 then { row := cur.row + 1, col := 0 } else { row := cur.row, col := cfg.cols }

/-- NEWLINE (R123). -/
def expandNewline (par : Params) (cfg : DisplayConfig) (cur : Cursor) : Expansion :=
  { items := [.write false (addressByte par cfg (newlineCursor cfg cur))], next := newlineCursor cfg cur }

/-- CARRIAGE_RETURN (R124). -/
def expandReturn (par : Params) (cfg : DisplayConfig) (cur : Cursor) : Expansion :=
  { items := [.write false (addressByte par cfg { cur with col := 0 })], next := { cur with col := 0 } }

/-- HOME (R125). -/
def expandHome (par : Params) : Expansion :=
  { items := [.write false par.lcdOp.returnHome, .wait par.timing.home], next := cursorHome }

/-- TAB (R126). -/
def expandTab (par : Params) (cfg : DisplayConfig) (cur : Cursor) : Expansion :=
  { items := List.replicate (tabCount par cfg cur) (.write true par.space),
    next := { cur with col := cur.col + tabCount par cfg cur } }

/-- FLASH (R127). -/
def expandFlash (par : Params) (cfg : DisplayConfig) (cur : Cursor) : Expansion :=
  { items := flashItems par cfg, next := cur }

/-- CHAR c (R128). -/
def expandChar (cfg : DisplayConfig) (cur : Cursor) (c : Byte) : Expansion :=
  if cur.col < cfg.cols then { items := [.write true c], next := { cur with col := cur.col + 1 } }
  else { items := [], next := cur }

/-- UNKNOWN P (R129). -/
def expandUnknown (cur : Cursor) (p : Byte) : Expansion := { items := [.warn (.unknownCommand p)], next := cur }

/-- `expand(cmd, cur, cfg)` over every instruction (R130): it reads the instruction, the cursor, the configuration and
the parameters, nothing else. For an emitted byte it is the one WRITE its issue adds (R80). -/
def expand (par : Params) (cfg : DisplayConfig) (cur : Cursor) : Instr → Expansion
  | .reset => expandReset par cfg
  | .clear => expandClear par
  | .bksp => expandBackspace par cfg cur
  | .nl => expandNewline par cfg cur
  | .cr => expandReturn par cfg cur
  | .home => expandHome par
  | .tab => expandTab par cfg cur
  | .flash => expandFlash par cfg cur
  | .char c => expandChar cfg cur c
  | .unk p => expandUnknown cur p
  | .clearDisplay => { items := [.write false par.lcdOp.clearDisplay], next := cur }
  | .returnHome => { items := [.write false par.lcdOp.returnHome], next := cur }
  | .entryModeInc => { items := [.write false par.lcdOp.entryModeInc], next := cur }
  | .displayOff => { items := [.write false par.lcdOp.displayOff], next := cur }
  | .displayOn c b => { items := [.write false (displayOnByte par c b)], next := cur }
  | .cursorLeft => { items := [.write false par.lcdOp.cursorLeft], next := cur }
  | .functionSet n f => { items := [.write false (functionSetByte par n f)], next := cur }
  | .setDdram a => { items := [.write false (setDdramByte par a)], next := cur }

/-! ### The meanings -/

/-- RESET (R120). -/
def execReset (s : State) : Result := acceptCommand s (expandReset s.par s.cfg)

/-- CLEAR (R121). -/
def execClear (s : State) : Result := acceptCommand s (expandClear s.par)

/-- BACKSPACE (R122). -/
def execBackspace (s : State) : Result := acceptCommand s (expandBackspace s.par s.cfg s.cur)

/-- NEWLINE (R123). -/
def execNewline (s : State) : Result := acceptCommand s (expandNewline s.par s.cfg s.cur)

/-- CARRIAGE_RETURN (R124). -/
def execReturn (s : State) : Result := acceptCommand s (expandReturn s.par s.cfg s.cur)

/-- HOME (R125). -/
def execHome (s : State) : Result := acceptCommand s (expandHome s.par)

/-- TAB (R126). -/
def execTab (s : State) : Result := acceptCommand s (expandTab s.par s.cfg s.cur)

/-- FLASH (R127). -/
def execFlash (s : State) : Result := acceptCommand s (expandFlash s.par s.cfg s.cur)

/-- CHAR c (R128). -/
def execChar (c : Byte) (s : State) : Result := acceptCommand s (expandChar s.cfg s.cur c)

/-- UNKNOWN P (R129). -/
def execUnknown (p : Byte) (s : State) : Result := acceptCommand s (expandUnknown s.cur p)

end Sys2Proof.Machine
end

