-- ==== Sys2Proof/Machine/Controller.lean ====
section
/-! DEFINITION. The emitted controller bytes, rows of format `lcd8` (30_encoding.md R80 to R83). They are outputs of
the block, never words a host offers (R87). The meaning of one is the block's issue of it: WRITE(0, byte) joins the
sequencer's list as its micro-operations (40_transport.md R106), by the same expansion every command is made of. The
sequencer holds such a list in INIT and BUSY only (10_state.md R30), so in the other modes nothing is issued
(log 7). -/

namespace Sys2Proof.Machine

/-- The block issues an instruction byte: WRITE(0, b) after what `seq` holds. -/
def issueInstruction (s : State) (b : Byte) : Result :=
  match s.mode with
  | .init => .next (s.setSeq (s.seq ++ writeMicros s.par s.pins false b))
  | .busy => .next (s.setSeq (s.seq ++ writeMicros s.par s.pins false b))
  | .uninit => .refused (.notEmitting .uninit)
  | .idle => .refused (.notEmitting .idle)
  | .fatal => .refused (.notEmitting .fatal)
  | .off => .refused (.notEmitting .off)

/-- CLEAR_DISPLAY (R80). -/
def execClearDisplay (s : State) : Result := issueInstruction s s.par.lcdOp.clearDisplay

/-- RETURN_HOME (R80). -/
def execReturnHome (s : State) : Result := issueInstruction s s.par.lcdOp.returnHome

/-- ENTRY_MODE_INC (R80). -/
def execEntryModeInc (s : State) : Result := issueInstruction s s.par.lcdOp.entryModeInc

/-- DISPLAY_OFF (R80). -/
def execDisplayOff (s : State) : Result := issueInstruction s s.par.lcdOp.displayOff

/-- DISPLAY_ON with its C and B bits (R81). -/
def execDisplayOn (c b : Bool) (s : State) : Result := issueInstruction s (displayOnByte s.par c b)

/-- CURSOR_LEFT (R80). -/
def execCursorLeft (s : State) : Result := issueInstruction s s.par.lcdOp.cursorLeft

/-- FUNCTION_SET with its N and F bits (R82). -/
def execFunctionSet (n f : Bool) (s : State) : Result := issueInstruction s (functionSetByte s.par n f)

/-- SET_DDRAM with its 7-bit address (R83). -/
def execSetDdram (a : BitVec 7) (s : State) : Result := issueInstruction s (setDdramByte s.par a)

end Sys2Proof.Machine
end

