-- ==== Sys2Proof/Machine/Dispatch.lean ====
section
/-! DEFINITION. exec: one arm per constructor of Instr, each one call of its meaning. -/

namespace Sys2Proof.Machine

def exec (i : Instr) (s : State) : Host.Outcome State Fault Refusal :=
  match i with
  | .reset => Sys2Proof.Machine.execReset s
  | .clear => Sys2Proof.Machine.execClear s
  | .bksp => Sys2Proof.Machine.execBackspace s
  | .nl => Sys2Proof.Machine.execNewline s
  | .cr => Sys2Proof.Machine.execReturn s
  | .home => Sys2Proof.Machine.execHome s
  | .tab => Sys2Proof.Machine.execTab s
  | .flash => Sys2Proof.Machine.execFlash s
  | .char c => Sys2Proof.Machine.execChar c s
  | .unk p => Sys2Proof.Machine.execUnknown p s
  | .clearDisplay => Sys2Proof.Machine.execClearDisplay s
  | .returnHome => Sys2Proof.Machine.execReturnHome s
  | .entryModeInc => Sys2Proof.Machine.execEntryModeInc s
  | .displayOff => Sys2Proof.Machine.execDisplayOff s
  | .displayOn c b => Sys2Proof.Machine.execDisplayOn c b s
  | .cursorLeft => Sys2Proof.Machine.execCursorLeft s
  | .functionSet n f => Sys2Proof.Machine.execFunctionSet n f s
  | .setDdram a => Sys2Proof.Machine.execSetDdram a s

end Sys2Proof.Machine
end

