-- ==== Sys2Proof/Machine/Lifecycle.lean ====
section
/-! DEFINITION. The lifecycle operations INITIALIZE (42_lifecycle.md R150) and SHUTDOWN (R152). -/

namespace Sys2Proof.Machine

/-- The set-up of one role: CFG, then SET 0; nothing for an unbound role (R150, D15). -/
def setUpRole (pins : PinMap) (r : Role) : List Micro := cfgRole pins r ++ setRole pins r false

/-- The backlight default: SET(BL, 1) where the flag is 1 and BL is bound (R150, D16). -/
def backlightDefault (cfg : DisplayConfig) (pins : PinMap) : List Micro :=
  if cfg.blDefaultOn then setRole pins .backlight true else []

/-- The optional power-on wait (R150, D25). -/
def powerOnWait (par : Params) : List Micro := if 0 < par.tPowerOn then [.wait par.tPowerOn] else []

/-- The micro-operations of INITIALIZE (R150). -/
def startMicros (par : Params) (dev : Device) (cfg : DisplayConfig) (pins : PinMap) : List Micro :=
  [.openDev dev] ++ roles.flatMap (setUpRole pins) ++ backlightDefault cfg pins ++ powerOnWait par
    ++ itemsMicros par pins (expandReset par cfg).items

/-- INITIALIZE(DEV, cfg, pins) (R150). Refused outside UNINIT (R156), with a configuration outside R8 (R21) or with a
pin map outside R23. -/
def acceptStart (dev : Device) (cfg : DisplayConfig) (pins : PinMap) (s : State) : Result :=
  if s.mode ≠ .uninit then .refused (.alreadyStarted s.mode)
  else if !configValid s.par cfg then .refused .badConfig
  else if !pinMapValid s.par pins then .refused .badPinMap
  else .next { s with cfg := cfg, pins := pins, mode := .init, seq := startMicros s.par dev cfg pins,
                      curNext := cursorHome }

/-- SHUTDOWN (R152): RELEASE is run and the mode becomes OFF, in one step (log 9). -/
def acceptShutdown (s : State) : Result :=
  if s.mode ≠ .idle then .refused (.notIdle s.mode)
  else .next { performRelease s with mode := .off, seq := [] }

end Sys2Proof.Machine
end

