-- ==== Sys2Proof/Machine/Sequencer.lean ====
section
/-! DEFINITION. What the block does at a step boundary: run its sequencer (40_transport.md R105), or take what the
host offers (42_lifecycle.md R150, R152, R154), and how an instruction is laid where the next step takes it. -/

namespace Sys2Proof.Machine

/-- The block takes one host operation; a command word is decoded and executed (R154). -/
def acceptOffer (op : HostOp) (s : State) : Result :=
  match op with
  | .start dev cfg pins => acceptStart dev cfg pins s
  | .command w => exec (decodeCommand w) s
  | .shutdown => acceptShutdown s

/-- The block outside INIT and BUSY: it takes the oldest offer. With nothing offered it waits in UNINIT and IDLE, and
in the terminal modes it takes no step (R156, R176, log 6). -/
def pollHost (s : State) : Result :=
  match s.offers with
  | op :: rest => acceptOffer op { s with offers := rest }
  | [] =>
    match s.mode with
    | .uninit => .next s
    | .idle => .next s
    | .init => .next s
    | .busy => .next s
    | .fatal => .fault .failed
    | .off => .fault .released

/-- One step of the block itself. In INIT and BUSY the sequencer runs, and an offered word waits with the host
(R105, R154). -/
def advance (s : State) : Result :=
  match s.mode with
  | .init => .next (runSequencer s)
  | .busy => .next (runSequencer s)
  | .uninit => pollHost s
  | .idle => pollHost s
  | .fatal => pollHost s
  | .off => pollHost s

/-- One step, the host's termination included: it falls at a step boundary, in any mode, and the block takes no step
afterwards (R153). -/
def stepBlock (s : State) : Result :=
  if s.cut then .fault .terminated
  else
    match s.termIn with
    | some 0 => .next (terminate s)
    | some (n + 1) => advance { s with termIn := some n }
    | none => advance s

/-! ### Laying an instruction where the next step takes it (log 4) -/

/-- The configuration of the spec's test vectors, 2 lines of 16 columns (95_test_vectors.md V2). -/
def benchConfig : DisplayConfig :=
  { lines := 2, cols := 16, width := 4, cursorEn := false, blinkEn := false, largeFont := false, blDefaultOn := false }

/-- The pin map PM-A of the spec's test vectors (95_test_vectors.md). -/
def benchPins : PinMap :=
  { regSel := some 2, readWrite := some 3, enable := some 4, backlight := some 5, dat0 := some 6 }

/-- The block ready for an instruction: a block already in IDLE keeps all it has; any other is put into the state an
INITIALIZE on the test vectors' configuration and pin map leaves it in, as far as acceptance reads it. -/
def makeReady (s : State) : State :=
  if s.ready then { s with termIn := none, cut := false }
  else
    { s with mode := .idle, cfg := benchConfig, pins := benchPins, cur := cursorHome, curNext := cursorHome, seq := [],
             held := true, fatalInfo := none, termIn := none, cut := false }

/-- The block ready and running an empty sequence, to which an emitted byte can be issued. -/
def makeRunning (s : State) : State := { makeReady s with mode := .busy, curNext := (makeReady s).cur, seq := [] }

/-- The instruction laid where the next step takes it: a command word as the oldest offer of the host (R154); an
emitted byte issued, its WRITE's micro-operations standing in `seq` (R30, R106); a byte the block never emits nowhere
(R86). -/
def layInstruction (s : State) : Encoded → State
  | .cw9 w => { makeReady s with offers := .command w :: s.offers }
  | .lcd8 b =>
    match decodeController b with
    | .ok i =>
      match exec i (makeRunning s) with
      | .next t => t
      | .fault _ => s
      | .refused _ => s
    | .error _ => s

end Sys2Proof.Machine
end

