-- ==== Sys2Proof/Machine/Step.lean ====
section
/-! DEFINITION. The step of the machine, and an instruction laid where it is taken next. -/

namespace Sys2Proof.Machine

/-- One step of the block (R105, R150 to R154). -/
def step (s : State) : Host.Outcome State Fault Refusal := stepBlock s

/-- `s` with the instruction numbered as the opcode table numbers it laid where the next step takes it; `s` itself
where the number fits no format (log 4, log 17). -/
def State.withFetchWord (s : State) (nbits w : Nat) : State :=
  match readTableWord nbits w with
  | .ok e => layInstruction s e
  | .error _ => s

end Sys2Proof.Machine
end

