-- ==== Sys2Proof/Machine/Observe.lean ====
section
/-! DEFINITION. What is read off a trace: the deterministic pin events (10_state.md R33), the minimum duration
(70_reset_and_hazards.md R209), the record of failed SETs (R205), the latched writes (40_transport.md R109), and
whether the LCD's nibble pairing is known (R205). -/

namespace Sys2Proof.Machine

/-- The event is one of `Cfg`, `Set`, `Wait`, the events that are a function of the command stream (R33, R130). -/
def isPinEvent : Event → Bool
  | .cfgPin _ => true
  | .setPin _ _ => true
  | .wait _ => true
  | .openDev _ => false
  | .release => false
  | .warn _ => false
  | .fatal _ => false

/-- The subsequence of `Cfg`, `Set` and `Wait` events of a trace (R33). -/
def pinEvents (tr : List Event) : List Event := tr.filter isPinEvent

/-- The `Cfg`, `Set` or `Wait` event a micro-operation emits, if it emits one. -/
def microPinEvents : Micro → List Event
  | .cfgPin p => [.cfgPin p]
  | .setPin p v => [.setPin p v]
  | .wait t => [.wait t]
  | .openDev _ => []
  | .release => []
  | .warn _ => []
  | .fatal _ => []

/-- The least time a trace stands for: the sum of its waits (R209). -/
def minMicros : List Event → Micros
  | [] => 0
  | .wait t :: rest => t + minMicros rest
  | .openDev _ :: rest => minMicros rest
  | .cfgPin _ :: rest => minMicros rest
  | .setPin _ _ :: rest => minMicros rest
  | .release :: rest => minMicros rest
  | .warn _ :: rest => minMicros rest
  | .fatal _ :: rest => minMicros rest

/-- The least time a list of micro-operations takes: the sum of its waits (R209). -/
def microsDuration (q : List Micro) : Micros := minMicros (q.flatMap microPinEvents)

/-- The event records a failed SET. -/
def isTransientIo : Event → Bool
  | .warn (.transientIo _ _) => true
  | .warn (.unknownCommand _) => false
  | .openDev _ => false
  | .cfgPin _ => false
  | .setPin _ _ => false
  | .wait _ => false
  | .release => false
  | .fatal _ => false

/-- A TRANSIENT_IO warning stands in the trace (R109, R205). -/
def hasTransientIo (tr : List Event) : Bool := tr.any isTransientIo

/-! ### Latched writes -/

/-- What one WRITE latches (R109). -/
inductive Latch where
  /-- every SET of the WRITE was acknowledged -/
  | pair (rs : Bool) (b : Byte)
  /-- a SET of the WRITE failed -/
  | corrupt
deriving DecidableEq, Repr

/-- What an observer of the lines keeps while it reads a trace: the levels last asked for on RS and the data lines, E
asked high, a SET of the current WRITE failed, and the first nibble once it is strobed. -/
structure Probe where
  rs : Bool
  data : Nibble
  high : Bool
  failed : Bool
  upper : Option Nibble
deriving DecidableEq, Repr

/-- The observer before it has seen an event. -/
def Probe.start : Probe := { rs := false, data := 0#4, high := false, failed := false, upper := none }

/-- The line a WRITE drives first: R/W, or RS where R/W is unbound (R106). -/
def firstWriteLine (pins : PinMap) : Option Line :=
  match pins.readWrite with
  | some p => some p
  | none => pins.regSel

/-- The line is one a WRITE drives (R106): every bound line but the backlight's. -/
def isWriteLine (pins : PinMap) (p : Line) : Bool :=
  [Role.readWrite, .regSel, .dat3, .dat2, .dat1, .dat0, .enable].any fun r => lineOf pins r == some p

/-- A nibble with one bit replaced. -/
def withBit (n : Nibble) (place : Nat) (v : Bool) : Nibble :=
  (n &&& ~~~(1#4 <<< place)) ||| ((BitVec.ofBool v).setWidth 4 <<< place)

/-- The data lines after a SET. -/
def probeData (pins : PinMap) (n : Nibble) (p : Line) (v : Bool) : Nibble :=
  if lineOf pins .dat0 = some p then withBit n 0 v
  else if lineOf pins .dat1 = some p then withBit n 1 v
  else if lineOf pins .dat2 = some p then withBit n 2 v
  else if lineOf pins .dat3 = some p then withBit n 3 v
  else n

/-- The observer's record of a failed SET: a WRITE's first line starts it afresh, a line no WRITE drives leaves it. -/
def probeFailed (pins : PinMap) (k : Probe) (p : Line) (failed : Bool) : Bool :=
  if firstWriteLine pins = some p then failed
  else if isWriteLine pins p then k.failed || failed
  else k.failed

/-- What the observer keeps after a SET that is not the end of a strobe. -/
def probeSet (pins : PinMap) (k : Probe) (p : Line) (v failed : Bool) : Probe :=
  { rs := if pins.regSel = some p then v else k.rs
    data := probeData pins k.data p v
    high := if pins.enable = some p then v else k.high
    failed := probeFailed pins k p failed
    upper := if firstWriteLine pins = some p then none else k.upper }

/-- The SET ends a strobe: E goes low after it was high (R107). -/
def endsStrobe (pins : PinMap) (k : Probe) (p : Line) (v : Bool) : Bool :=
  (pins.enable == some p) && !v && k.high

/-- The nibble a strobe latches completes a byte, or is its first half (R59). -/
def latchNibble (k : Probe) : Probe × List Latch :=
  match k.upper with
  | none => ({ k with upper := some k.data }, [])
  | some u => ({ k with upper := none }, [if k.failed then .corrupt else .pair k.rs (u ++ k.data)])

/-- A TRANSIENT_IO warning stands first; directly after a `Set` event it says that this SET failed (R175). -/
def failedNext : List Event → Bool
  | [] => false
  | e :: _ => isTransientIo e

/-- What the observer keeps after a `Set` event, and what the event latches; `rest` is what follows it in the trace. -/
def probeEvent (pins : PinMap) (k : Probe) (p : Line) (v : Bool) (rest : List Event) : Probe × List Latch :=
  let k' := probeSet pins k p v (failedNext rest)
  if endsStrobe pins k p v then latchNibble k' else (k', [])

/-- The latched writes of a trace, read from the given record on (R109, log 12). -/
def latchedFrom (pins : PinMap) : Probe → List Event → List Latch
  | _, [] => []
  | k, .setPin p v :: rest =>
    (probeEvent pins k p v rest).2 ++ latchedFrom pins (probeEvent pins k p v rest).1 rest
  | k, .openDev _ :: rest => latchedFrom pins k rest
  | k, .cfgPin _ :: rest => latchedFrom pins k rest
  | k, .wait _ :: rest => latchedFrom pins k rest
  | k, .release :: rest => latchedFrom pins k rest
  | k, .warn _ :: rest => latchedFrom pins k rest
  | k, .fatal _ :: rest => latchedFrom pins k rest

/-- The `latched` sequence of a run's trace (R109). -/
def latched (pins : PinMap) (tr : List Event) : List Latch := latchedFrom pins Probe.start tr

/-! ### The nibble pairing -/

/-- What the observer keeps at the end of a trace, read from the given record on. -/
def probeFrom (pins : PinMap) : Probe → List Event → Probe
  | k, [] => k
  | k, .setPin p v :: rest => probeFrom pins (probeEvent pins k p v rest).1 rest
  | k, .openDev _ :: rest => probeFrom pins k rest
  | k, .cfgPin _ :: rest => probeFrom pins k rest
  | k, .wait _ :: rest => probeFrom pins k rest
  | k, .release :: rest => probeFrom pins k rest
  | k, .warn _ :: rest => probeFrom pins k rest
  | k, .fatal _ :: rest => probeFrom pins k rest

/-- The trace ends inside a WRITE, from the rise of E in its first strobe to before the fall of E in its second. No rule
depends on the edge a strobe latches at (R109), so a strobe under way counts as between the strobes (log 23). -/
def endsMidWrite (pins : PinMap) (tr : List Event) : Bool :=
  (probeFrom pins Probe.start tr).high || (probeFrom pins Probe.start tr).upper.isSome

/-- The pin events of a whole RESET (R120). -/
def resetPinEvents (par : Params) (cfg : DisplayConfig) (pins : PinMap) : List Event :=
  (itemsMicros par pins (expandReset par cfg).items).flatMap microPinEvents

/-- The trace begins with a pin event, and its pin events begin with the given ones. -/
def beginsWith (pat : List Event) : List Event → Bool
  | [] => false
  | e :: rest => isPinEvent e && pat.isPrefixOf (pinEvents (e :: rest))

/-- The end of a trace from the last whole occurrence of the given pin events on, where there is one. -/
def fromLast (pat : List Event) : List Event → Option (List Event)
  | [] => none
  | e :: rest =>
    match fromLast pat rest with
    | some w => some w
    | none => if beginsWith pat (e :: rest) then some (e :: rest) else none

/-- The trace since the last completed RESET, that RESET's own events included, where one has completed (R205,
log 23). -/
def State.sinceReset (s : State) : Option (List Event) := fromLast (resetPinEvents s.par s.cfg s.pins) s.trace

/-- The LCD's nibble pairing is unknown (R205): no RESET has completed, or since the last completed one a SET failed or
the block was terminated between the two strobes of a WRITE. A claim about what the LCD holds takes its negation as a
premise (R109, D34, log 23). -/
def State.pairingUnknown (s : State) : Bool :=
  match s.sinceReset with
  | none => true
  | some w => hasTransientIo w || (s.cut && endsMidWrite s.pins w)

end Sys2Proof.Machine
end

