-- ==== Sys2Proof/Safety.lean ====
section
/-! DEFINITION. What claims are stated in: the invariant of the block's state, the undisturbed step, the latched
writes a command's expansion asks for. -/

namespace Sys2Proof.Machine

/-- The host does not terminate the block (R153). -/
def Undisturbed (s : State) : Prop := s.cut = false ∧ s.termIn = none

/-- `k` steps of the machine, stopping at the first fault or refusal. -/
def runSteps : Nat → State → Result
  | 0, s => .next s
  | k + 1, s =>
    match step s with
    | .next t => runSteps k t
    | .fault r => .fault r
    | .refused r => .refused r

/-- A micro-operation a command may hold: it raises no fatal error and does not touch the device's ownership
(R177: fatal errors arise only in INIT). -/
def isQuiet : Micro → Bool
  | .setPin _ _ => true
  | .wait _ => true
  | .warn _ => true
  | .openDev _ => false
  | .cfgPin _ => false
  | .release => false
  | .fatal _ => false

/-- A micro-operation INITIALIZE runs after its OPEN (R150). -/
def isSetUp : Micro → Bool
  | .cfgPin _ => true
  | .setPin _ _ => true
  | .wait _ => true
  | .openDev _ => false
  | .warn _ => false
  | .release => false
  | .fatal _ => false

/-- The line a micro-operation addresses. -/
def microLine : Micro → Option Line
  | .cfgPin p => some p
  | .setPin p _ => some p
  | .openDev _ => none
  | .wait _ => none
  | .warn _ => none
  | .release => none
  | .fatal _ => none

/-- How many Release events a trace of this standing holds: one after SHUTDOWN or a failed CFG, else none
(R32, R152, R174). -/
def releasesDue (s : State) : Nat :=
  match s.mode with
  | .off => 1
  | .fatal =>
    match s.fatalInfo with
    | some (.configError _) => 1
    | some (.openError _) => 0
    | none => 0
  | .uninit => 0
  | .init => 0
  | .idle => 0
  | .busy => 0

/-- The shape of INITIALIZE's remaining list: the OPEN first while the device is not held, set-up steps only once it
is (R104, R150). -/
def initShape (s : State) : Prop :=
  (s.held = false ∧ ∃ dev rest, s.seq = .openDev dev :: rest ∧ rest.all isSetUp = true ∧ rest ≠ [])
    ∨ (s.held = true ∧ s.seq.all isSetUp = true)

/-- The invariant every step keeps. -/
structure Inv (s : State) : Prop where
  /-- the level store is in its canonical form -/
  canonical : linesCanonical s.out
  /-- only bound lines have a known level: no other line is ever addressed (R51) -/
  outBound : ∀ e ∈ s.out, e.1 ∈ boundLines s.pins
  /-- the sequencer addresses bound lines only (R51) -/
  seqBound : ∀ m ∈ s.seq, ∀ p, microLine m = some p → p ∈ boundLines s.pins
  /-- before INITIALIZE nothing is held, driven or emitted (R38) -/
  fresh : s.mode = .uninit → s.held = false ∧ s.out = [] ∧ s.trace = []
  /-- after INITIALIZE was accepted the configuration and the pin map are valid (R21, R23) -/
  configured : s.mode ≠ .uninit → configValid s.par s.cfg = true ∧ pinMapValid s.par s.pins = true
  /-- `seq` is empty exactly outside INIT and BUSY (R30) -/
  seqRunning : s.seq ≠ [] ↔ (s.mode = .init ∨ s.mode = .busy)
  /-- a command holds only SET, WAIT and WARN (R177) -/
  busyQuiet : s.mode = .busy → s.seq.all isQuiet = true
  /-- INITIALIZE's list has its shape (R150) -/
  starting : s.mode = .init → initShape s
  /-- the device is held in IDLE and BUSY (R32) -/
  heldRunning : s.mode = .idle ∨ s.mode = .busy → s.held = true
  /-- the device is not held in FATAL and OFF (R32, R152, R174) -/
  heldEnded : s.mode = .fatal ∨ s.mode = .off → s.held = false
  /-- the cursor is in its range (R25, R26, R28) -/
  cursorRange : s.mode = .idle ∨ s.mode = .busy → cursorInRange s.cfg s.cur = true
  /-- so is the cursor to commit (R31) -/
  nextRange : s.mode = .busy → cursorInRange s.cfg s.curNext = true
  /-- a fatal error is recorded exactly in FATAL (R35, R174) -/
  fatalRecorded : s.fatalInfo.isSome = true ↔ s.mode = .fatal
  /-- the device is released exactly once (R32, R104) -/
  releasedOnce : s.trace.count .release = releasesDue s

/-- The pairs the WRITEs of an expansion latch when every SET is acknowledged, in order (R109). -/
def itemLatches : List Item → List Latch
  | [] => []
  | .write rs b :: rest => .pair rs b :: itemLatches rest
  | .wait _ :: rest => itemLatches rest
  | .warn _ :: rest => itemLatches rest

/-- How many requests a list of micro-operations makes of the GPIO device: its OPENs, CFGs and SETs (R171, R172). -/
def requests : List Micro → Nat
  | [] => 0
  | .openDev _ :: rest => requests rest + 1
  | .cfgPin _ :: rest => requests rest + 1
  | .setPin _ _ :: rest => requests rest + 1
  | .wait _ :: rest => requests rest
  | .release :: rest => requests rest
  | .warn _ :: rest => requests rest
  | .fatal _ :: rest => requests rest

end Sys2Proof.Machine
end

