-- ==== Sys2Proof/Certificates/Slice0/Obligations.lean ====
section
/-! DEFINITION. The statements for the provers. Each docstring names the rule of spec/ it formalises; where it rests on
a decision of the spec (D<n>), an inference the spec marks as its own, or a choice of the model (log <n>), it says so. -/

open Sys2Proof Sys2Proof.Machine

/-! ### Encoding -/

/-- Words of the opcode table decode to the instructions they stand for (30_encoding.md R72 to R74, R80 to R83;
95_test_vectors.md V2.12). The command codes are the spec's own (D2); the byte values are D9, D10 (PRESUMED, log 14),
and the number of bits tells the formats apart (log 17). -/
def Obligations.TabulatedWordsDecode : Prop :=
  decodeTableWord 16 0x100 = some .reset ∧ decodeTableWord 16 0x101 = some .clear
    ∧ decodeTableWord 16 0x102 = some .bksp ∧ decodeTableWord 16 0x103 = some .nl
    ∧ decodeTableWord 16 0x104 = some .cr ∧ decodeTableWord 16 0x105 = some .home
    ∧ decodeTableWord 16 0x106 = some .tab ∧ decodeTableWord 16 0x107 = some .flash
    ∧ decodeTableWord 16 0x041 = some (.char 0x41#8) ∧ decodeTableWord 16 0x1FF = some (.unk 0xFF#8)
    ∧ decodeTableWord 16 0x108 = some (.unk 0x08#8)
    ∧ decodeTableWord 8 0x01 = some .clearDisplay ∧ decodeTableWord 8 0x02 = some .returnHome
    ∧ decodeTableWord 8 0x06 = some .entryModeInc ∧ decodeTableWord 8 0x08 = some .displayOff
    ∧ decodeTableWord 8 0x0E = some (.displayOn true false) ∧ decodeTableWord 8 0x10 = some .cursorLeft
    ∧ decodeTableWord 8 0x28 = some (.functionSet true false) ∧ decodeTableWord 8 0xC0 = some (.setDdram 0x40#7)

/-- Decoding the encoding of any well-formed instruction gives it back, with every operand at every value (R70 to R74,
R80 to R83). -/
def Obligations.DecodeOfEncodeIsTheInstruction : Prop :=
  ∀ i : Instr, i.wellFormed = true → decode (encode i) = .ok i

/-- Decoding is total on the 512 command words, gives a well-formed command for each, and loses no bit (R74, R75). -/
def Obligations.EveryCommandWordIsACommand : Prop :=
  ∀ w : CommandWord, (decodeCommand w).isCommand = true ∧ (decodeCommand w).wellFormed = true
    ∧ encode (decodeCommand w) = .cw9 w

/-- A byte read as an emitted controller byte is the encoding of what it reads as; any other byte is rejected by name
(R80, R86; byte values D9, D10, PRESUMED, log 14). -/
def Obligations.ControllerBytesAreReadExactly : Prop :=
  ∀ b : Byte, (∀ i, decodeController b = .ok i → i.isCommand = false ∧ encode i = .lcd8 b)
    ∧ (∀ e, decodeController b = .error e → e = .neverEmitted b ∧ ∀ i, encode i ≠ .lcd8 b)

/-! ### The step around exec -/

/-- In IDLE the step takes the oldest offered word and is exec of the instruction it decodes to, with the word taken
from the host and one step less to go before a termination that is set (R154; the queue and the countdown are the
model's, log 4, log 5). -/
def Obligations.StepRunsTheOfferedWord : Prop :=
  ∀ (s : State) (w : CommandWord) (rest : List HostOp),
    s.cut = false → s.termIn ≠ some 0 → s.mode = .idle → s.offers = .command w :: rest →
      step s = exec (decodeCommand w) { s with offers := rest, termIn := s.termIn.map (· - 1) }

/-- An instruction laid by withFetchWord is what the very next step runs: a command word is executed by the step, an
emitted byte has been issued and its WRITE is begun (the model's placement, log 4, log 7, log 17). -/
def Obligations.LaidInstructionRunsNext : Prop :=
  (∀ (s : State) (w : CommandWord), step (s.withFetchWord 16 w.toNat) = exec (decodeCommand w) (makeReady s))
    ∧ (∀ (s : State) (b : Byte) (i : Instr), decodeController b = .ok i →
        exec i (makeRunning s) = .next (s.withFetchWord 8 b.toNat)
          ∧ step (s.withFetchWord 8 b.toNat) = .next (runSequencer (s.withFetchWord 8 b.toNat)))

/-- The sequencer's step (R105): the head micro-operation is removed and performed; a warning lets the list go on, a
fatal error discards the rest; when the list becomes empty the cursor is committed in BUSY, the cursor is (0, 0) in
INIT (R150), and the block is IDLE. -/
def Obligations.SequencerPerformsTheHead : Prop :=
  ∀ (s : State) (m : Micro) (rest : List Micro),
    Undisturbed s → s.mode = .init ∨ s.mode = .busy → s.seq = m :: rest →
      let t := perform m (s.setSeq rest)
      (step s = .next (if t.seq = [] ∧ t.mode = .busy then { t with cur := t.curNext, mode := .idle }
          else if t.seq = [] ∧ t.mode = .init then { t with cur := cursorHome, mode := .idle } else t))
        ∧ ((t.seq = rest ∧ t.mode = s.mode) ∨ (t.seq = [] ∧ t.mode = .fatal))

/-- While the block runs it accepts nothing: an offered word waits, and no command is executed outside IDLE (R154, D4,
I9; that any offered operation waits so is log 20, and the emitted bytes of log 7 are no commands). -/
def Obligations.CommandsRunInIdleOnly : Prop :=
  (∀ s t : State, s.mode = .init ∨ s.mode = .busy → step s = .next t → t.offers = s.offers)
    ∧ (∀ (s : State) (i : Instr), i.isCommand = true → s.mode ≠ .idle → exec i s = .refused (.notReady s.mode))

/-! ### The commands -/

/-- RESET (R120): three function sets each with T_FS, display-off, display-on and entry mode each with T_CTL (D11), and
CLEAR_SEQ; the cursor to commit is (0, 0). The three equal function sets are D9. Under the default LCD_OP the configuration
enters those bytes as R81 and R82 say: CURSOR_EN at bit 1 and BLINK_EN at bit 0 of DISPLAY_ON, `LINES > 1` at bit 3 and
LARGE_FONT at bit 2 of FUNCTION_SET (the fields are D9, the values and places D10, G1, G10; PRESUMED, log 14). -/
def Obligations.ResetIsAccepted : Prop :=
  (∀ s : State, s.mode = .idle → s.par.lcdOp.functionSetSeq = [.configured, .configured, .configured] →
    exec .reset s = .next
      { s with
        seq := itemsMicros s.par s.pins
          [.write false (configFunctionSet s.par s.cfg), .wait s.par.timing.functionSet,
            .write false (configFunctionSet s.par s.cfg), .wait s.par.timing.functionSet,
            .write false (configFunctionSet s.par s.cfg), .wait s.par.timing.functionSet,
            .write false s.par.lcdOp.displayOff, .wait s.par.timing.control,
            .write false (configDisplayOn s.par s.cfg), .wait s.par.timing.control,
            .write false s.par.lcdOp.entryModeInc, .wait s.par.timing.control,
            .write false s.par.lcdOp.clearDisplay, .wait s.par.timing.clear]
        curNext := { row := 0, col := 0 }
        mode := .busy })
    ∧ ∀ (par : Params) (cfg : DisplayConfig), par.lcdOp = specLcdOp →
      configDisplayOn par cfg
          = 0x0C#8 ||| (if cfg.cursorEn then 0x02#8 else 0x00#8) ||| (if cfg.blinkEn then 0x01#8 else 0x00#8)
        ∧ configFunctionSet par cfg
          = 0x20#8 ||| (if 1 < cfg.lines then 0x08#8 else 0x00#8) ||| (if cfg.largeFont then 0x04#8 else 0x00#8)

/-- CLEAR is accepted (R121): its word is 0x101 (that code is D2), `seq` is the write of CLEAR_DISPLAY = 0x01 and the wait
T_CLR, and from every cursor the cursor to commit, `cur_next`, is (0, 0). -/
def Obligations.ClearIsAccepted : Prop :=
  encode .clear = .cw9 0x101#9 ∧ specLcdOp.clearDisplay = 0x01#8
    ∧ ∀ s : State, s.mode = .idle →
        exec .clear s = .next
          { s with seq := itemsMicros s.par s.pins [.write false s.par.lcdOp.clearDisplay, .wait s.par.timing.clear]
                   curNext := { row := 0, col := 0 }
                   mode := .busy }

/-- BACKSPACE (R122): one column left with CURSOR_LEFT and no further delay (D12), or at column 0 the FLASH sequence and
no move; the row never changes. -/
def Obligations.BackspaceIsAccepted : Prop :=
  ∀ s : State, s.mode = .idle →
    (0 < s.cur.col →
      exec .bksp s = .next
        { s with seq := itemsMicros s.par s.pins [.write false s.par.lcdOp.cursorLeft]
                 curNext := { row := s.cur.row, col := s.cur.col - 1 }
                 mode := .busy })
      ∧ (s.cur.col = 0 →
        exec .bksp s = .next
          { s with seq := itemsMicros s.par s.pins (expandFlash s.par s.cfg s.cur).items
                   curNext := s.cur
                   mode := .busy })

/-- NEWLINE (R123): the start of the next row, or on the last row the park at column COLS; either way the address of the
new cursor is written, with no further delay (D12). -/
def Obligations.NewlineIsAccepted : Prop :=
  ∀ s : State, s.mode = .idle →
    (s.cur.row < s.cfg.lines - 1 →
      exec .nl s = .next
        { s with seq := itemsMicros s.par s.pins
                          [.write false (addressByte s.par s.cfg { row := s.cur.row + 1, col := 0 })]
                 curNext := { row := s.cur.row + 1, col := 0 }
                 mode := .busy })
      ∧ (¬ s.cur.row < s.cfg.lines - 1 →
        exec .nl s = .next
          { s with seq := itemsMicros s.par s.pins
                            [.write false (addressByte s.par s.cfg { row := s.cur.row, col := s.cfg.cols })]
                   curNext := { row := s.cur.row, col := s.cfg.cols }
                   mode := .busy })

/-- CARRIAGE_RETURN (R124): column 0 of the same row, its address written even from column 0, with no further delay
(D12). -/
def Obligations.CarriageReturnIsAccepted : Prop :=
  ∀ s : State, s.mode = .idle →
    exec .cr s = .next
      { s with seq := itemsMicros s.par s.pins [.write false (addressByte s.par s.cfg { row := s.cur.row, col := 0 })]
               curNext := { row := s.cur.row, col := 0 }
               mode := .busy }

/-- HOME is accepted (R125): its word is 0x105 (that code is D2), `seq` is the write of RETURN_HOME and the wait T_HOME,
and from every cursor the cursor to commit, `cur_next`, is (0, 0). That RETURN_HOME is 0x02 is the family's value (D10,
G1; PRESUMED, log 14). -/
def Obligations.HomeIsAccepted : Prop :=
  encode .home = .cw9 0x105#9 ∧ specLcdOp.returnHome = 0x02#8
    ∧ ∀ s : State, s.mode = .idle →
        exec .home s = .next
          { s with seq := itemsMicros s.par s.pins [.write false s.par.lcdOp.returnHome, .wait s.par.timing.home]
                   curNext := { row := 0, col := 0 }
                   mode := .busy }

/-- TAB (R126): as many SPACE writes as reach the next tab stop strictly above the column (D14), clipped to COLS; with
nothing to write the command completes in its acceptance (D33), the cursor unmoved. -/
def Obligations.TabIsAccepted : Prop :=
  ∀ (s : State) (n : Nat), s.mode = .idle →
    n = min ((s.cur.col / s.par.tabStop + 1) * s.par.tabStop) s.cfg.cols - s.cur.col →
      (0 < n →
        exec .tab s = .next
          { s with seq := itemsMicros s.par s.pins (List.replicate n (.write true s.par.space))
                   curNext := { row := s.cur.row, col := s.cur.col + n }
                   mode := .busy })
        ∧ (n = 0 → exec .tab s = .next { s with seq := [], curNext := s.cur })

/-- FLASH (R127): display-off and display-on twice, each with T_FLASH (D13); the cursor does not move. Under the default
LCD_OP display-off is 0x08, and display-on carries the configured CURSOR_EN at bit 1 and BLINK_EN at bit 0 (R81; values
and places D10, G1; PRESUMED, log 14). -/
def Obligations.FlashIsAccepted : Prop :=
  (∀ s : State, s.mode = .idle →
    exec .flash s = .next
      { s with
        seq := itemsMicros s.par s.pins
          [.write false s.par.lcdOp.displayOff, .wait s.par.timing.flash,
            .write false (configDisplayOn s.par s.cfg), .wait s.par.timing.flash,
            .write false s.par.lcdOp.displayOff, .wait s.par.timing.flash,
            .write false (configDisplayOn s.par s.cfg), .wait s.par.timing.flash]
        curNext := s.cur
        mode := .busy })
    ∧ ∀ (par : Params) (cfg : DisplayConfig), par.lcdOp = specLcdOp →
      par.lcdOp.displayOff = 0x08#8
        ∧ configDisplayOn par cfg
          = 0x0C#8 ||| (if cfg.cursorEn then 0x02#8 else 0x00#8) ||| (if cfg.blinkEn then 0x01#8 else 0x00#8)

/-- CHAR c (R128): written unchanged with no further delay (D12) and one column on while the column is below COLS;
dropped at the edge, where the command completes in its acceptance with no write and no move (D33). -/
def Obligations.CharacterIsAccepted : Prop :=
  ∀ (s : State) (c : Byte), s.mode = .idle →
    (s.cur.col < s.cfg.cols →
      exec (.char c) s = .next
        { s with seq := itemsMicros s.par s.pins [.write true c]
                 curNext := { row := s.cur.row, col := s.cur.col + 1 }
                 mode := .busy })
      ∧ (¬ s.cur.col < s.cfg.cols → exec (.char c) s = .next { s with seq := [], curNext := s.cur })

/-- UNKNOWN P (R129): every word 0x100 | P with P in 0x08..0xFF (the codes are D2) is accepted with the one WARN
micro-operation and no cursor change, and its one step appends the UNKNOWN_COMMAND warning and nothing else. -/
def Obligations.UnknownCodeOnlyWarns : Prop :=
  ∀ p : Byte, 8 ≤ p.toNat →
    decodeCommand (0x100#9 ||| p.setWidth 9) = .unk p
      ∧ ∀ s : State, Undisturbed s → s.mode = .idle →
          exec (.unk p) s = .next { s with seq := [.warn (.unknownCommand p)], curNext := s.cur, mode := .busy }
            ∧ step { s with seq := [.warn (.unknownCommand p)], curNext := s.cur, mode := .busy }
                = .next { s with seq := [], curNext := s.cur, trace := s.trace ++ [.warn (.unknownCommand p)] }

/-- What acceptance of a command leaves unchanged: the parameters, the configuration, the pin map, the device's
ownership, the recorded error, every output level, the trace and the environment; the cursor too, unless the command
completes at once, and then the mode stays IDLE (R31, R154). Holds for RESET, CLEAR, BKSP, NL, CR, HOME, TAB, FLASH, CHAR
and UNK. -/
def Obligations.AcceptanceFrame : Prop :=
  ∀ (s t : State) (i : Instr), i.isCommand = true → exec i s = .next t →
    t.par = s.par ∧ t.cfg = s.cfg ∧ t.pins = s.pins ∧ t.held = s.held ∧ t.fatalInfo = s.fatalInfo
      ∧ (∀ p, readLine t.out p = readLine s.out p) ∧ t.out = s.out ∧ t.trace = s.trace ∧ t.offers = s.offers
      ∧ t.answers = s.answers ∧ t.draws = s.draws ∧ t.termIn = s.termIn ∧ t.cut = s.cut
      ∧ ((t.mode = .busy ∧ t.seq ≠ [] ∧ t.cur = s.cur) ∨ (t.mode = .idle ∧ t.seq = [] ∧ t.cur = t.curNext))

/-! ### The emitted bytes -/

/-- Each of the eight emitted controller bytes, issued where the sequencer runs, adds its one WRITE with RS = 0 to the
sequencer's list and changes nothing else (R80 to R83, R106; the meaning of an output row is log 7). -/
def Obligations.IssuedBytesJoinTheSequence : Prop :=
  ∀ s : State, s.mode = .init ∨ s.mode = .busy →
    (exec .clearDisplay s
        = .next { s with seq := s.seq ++ itemsMicros s.par s.pins [.write false s.par.lcdOp.clearDisplay] })
      ∧ (exec .returnHome s
        = .next { s with seq := s.seq ++ itemsMicros s.par s.pins [.write false s.par.lcdOp.returnHome] })
      ∧ (exec .entryModeInc s
        = .next { s with seq := s.seq ++ itemsMicros s.par s.pins [.write false s.par.lcdOp.entryModeInc] })
      ∧ (exec .displayOff s
        = .next { s with seq := s.seq ++ itemsMicros s.par s.pins [.write false s.par.lcdOp.displayOff] })
      ∧ (∀ c b, exec (.displayOn c b) s
        = .next { s with seq := s.seq ++ itemsMicros s.par s.pins [.write false (displayOnByte s.par c b)] })
      ∧ (exec .cursorLeft s
        = .next { s with seq := s.seq ++ itemsMicros s.par s.pins [.write false s.par.lcdOp.cursorLeft] })
      ∧ (∀ n f, exec (.functionSet n f) s
        = .next { s with seq := s.seq ++ itemsMicros s.par s.pins [.write false (functionSetByte s.par n f)] })
      ∧ (∀ a, exec (.setDdram a) s
        = .next { s with seq := s.seq ++ itemsMicros s.par s.pins [.write false (setDdramByte s.par a)] })

/-- Under the default LCD_OP the byte an emitted instruction writes is its encoding in the opcode table (R80, R87; D9,
D10, PRESUMED, log 14). That its meaning is to append that WRITE to `seq` in INIT and BUSY is the model's choice (log
7). -/
def Obligations.IssuedByteIsItsTableByte : Prop :=
  ∀ (s : State) (i : Instr) (b : Byte), s.mode = .init ∨ s.mode = .busy → s.par.lcdOp = specLcdOp →
    encode i = .lcd8 b → exec i s = .next { s with seq := s.seq ++ writeMicros s.par s.pins false b }

/-- Where the sequencer runs nothing no controller byte is issued: the emitted bytes are outputs, not words the block
accepts (R30, R87; the refusal is log 7). -/
def Obligations.NoByteIsIssuedAtRest : Prop :=
  ∀ (s : State) (i : Instr), i.isCommand = false → s.mode ≠ .init → s.mode ≠ .busy →
    exec i s = .refused (.notEmitting s.mode)

/-- Under the default LCD_OP every instruction byte any command writes is one of the tabulated controller bytes, so no
other controller instruction is ever emitted (R80, R86; byte values D9, D10, PRESUMED, log 14). -/
def Obligations.OnlyTabulatedBytesAreWritten : Prop :=
  ∀ (cfg : DisplayConfig) (cur : Cursor) (i : Instr) (b : Byte),
    Item.write false b ∈ (expand specParams cfg cur i).items →
      ∃ j : Instr, j.isCommand = false ∧ decodeController b = .ok j ∧ encode j = .lcd8 b

/-- Emitted data bytes (R84): CHAR writes its code unchanged, TAB writes the space, and no other data byte is written.
That the space is 0x20 is the ASCII code the spec takes from general knowledge (R11, G8; PRESUMED, log 14). -/
def Obligations.OnlyCharAndTabWriteData : Prop :=
  (∀ (par : Params) (cfg : DisplayConfig) (cur : Cursor) (i : Instr) (b : Byte),
      Item.write true b ∈ (expand par cfg cur i).items → i = .char b ∨ (i = .tab ∧ b = par.space))
    ∧ specParams.space = 0x20#8
    ∧ (∀ (par : Params) (cfg : DisplayConfig) (cur : Cursor) (c : Byte), cur.col < cfg.cols →
        (expand par cfg cur (.char c)).items = [.write true c])
    ∧ (∀ (par : Params) (cfg : DisplayConfig) (cur : Cursor) (it : Item),
        it ∈ (expand par cfg cur .tab).items → it = .write true par.space)

/-! ### Addresses and the cursor -/

/-- `calc_addr` (R53), and where it reaches the LCD: as the operand of the set-DDRAM-address instruction
0x80 | address, written by NEWLINE and CARRIAGE_RETURN and by no other command. That no other command writes a byte with
bit 7 set rests on the default LCD_OP (D9, D10; PRESUMED, log 14), and outside the cursor's range the address is narrowed
to 7 bits (log 16). -/
def Obligations.AddressIsComputedAndWritten : Prop :=
  (∀ (cfg : DisplayConfig) (c : Cursor),
      calcAddr specParams cfg c = c.col + (if c.row = 1 ∨ c.row = 3 then 0x40 else 0)
        + (if c.row = 2 ∨ c.row = 3 then cfg.cols else 0))
    ∧ (∀ (cfg : DisplayConfig) (c : Cursor),
        addressByte specParams cfg c = 0x80#8 ||| (BitVec.ofNat 7 (calcAddr specParams cfg c)).setWidth 8)
    ∧ (∀ (cfg : DisplayConfig) (cur : Cursor), ∀ i ∈ [Instr.nl, Instr.cr],
        (expand specParams cfg cur i).items
          = [.write false (addressByte specParams cfg (expand specParams cfg cur i).next)])
    ∧ (∀ (cfg : DisplayConfig) (cur : Cursor) (i : Instr) (b : Byte), i.isCommand = true →
        Item.write false b ∈ (expand specParams cfg cur i).items → b.getLsbD 7 = true → i = .nl ∨ i = .cr)

/-- SET_DDRAM operand assembly (R83): for a legal configuration and a cursor in range the byte is 0x80 | calc_addr, its
bit 7 is 1, its bits 6..0 are the address, and the address never exceeds 0x68. -/
def Obligations.AddressByteHoldsTheAddress : Prop :=
  ∀ (cfg : DisplayConfig) (c : Cursor), configValid specParams cfg = true → cursorInRange cfg c = true →
    calcAddr specParams cfg c ≤ 0x68
      ∧ addressByte specParams cfg c = 0x80#8 ||| BitVec.ofNat 8 (calcAddr specParams cfg c)
      ∧ (addressByte specParams cfg c).getLsbD 7 = true
      ∧ ((addressByte specParams cfg c).setWidth 7).toNat = calcAddr specParams cfg c

/-- The logical-row layout (R55). -/
def Obligations.RowsAreLaidOut : Prop :=
  ∀ (cfg : DisplayConfig) (c : Nat), configValid specParams cfg = true → c < cfg.cols →
    calcAddr specParams cfg { row := 0, col := c } = c
      ∧ (cfg.lines = 2 ∨ cfg.lines = 4 → calcAddr specParams cfg { row := 1, col := c } = 0x40 + c)
      ∧ (cfg.lines = 4 → calcAddr specParams cfg { row := 2, col := c } = cfg.cols + c)
      ∧ (cfg.lines = 4 → calcAddr specParams cfg { row := 3, col := c } = 0x40 + cfg.cols + c)

/-- No two positions of the display share a DDRAM address; the parked address of rows 0 and 1 of a 4-line display is the
start of rows 2 and 3 (read from R53, R55, R56). -/
def Obligations.PositionsHaveDistinctAddresses : Prop :=
  (∀ (cfg : DisplayConfig) (c d : Cursor), configValid specParams cfg = true → c.col < cfg.cols → c.row < cfg.lines →
      d.col < cfg.cols → d.row < cfg.lines → calcAddr specParams cfg c = calcAddr specParams cfg d → c = d)
    ∧ (∀ (cfg : DisplayConfig), cfg.lines = 4 →
        calcAddr specParams cfg { row := 0, col := cfg.cols } = calcAddr specParams cfg { row := 2, col := 0 }
          ∧ calcAddr specParams cfg { row := 1, col := cfg.cols } = calcAddr specParams cfg { row := 3, col := 0 })

/-- The cursor invariant (R28, an inference of the spec): from a cursor in range every command commits a cursor in
range. -/
def Obligations.CommandsKeepTheCursorInRange : Prop :=
  ∀ (par : Params) (cfg : DisplayConfig) (cur : Cursor) (i : Instr),
    configValid par cfg = true → cursorInRange cfg cur = true → cursorInRange cfg (expand par cfg cur i).next = true

/-- The count of TAB's spaces (R126): between 0 and 8, none exactly at the parked column, and the new column is a tab
stop or COLS. That a column on a tab stop advances a full 8 is D14. -/
def Obligations.TabReachesTheNextStop : Prop :=
  ∀ (cfg : DisplayConfig) (cur : Cursor), cur.col ≤ cfg.cols →
    tabCount specParams cfg cur ≤ 8 ∧ (tabCount specParams cfg cur = 0 ↔ cur.col = cfg.cols)
      ∧ ((cur.col + tabCount specParams cfg cur) % 8 = 0 ∨ cur.col + tabCount specParams cfg cur = cfg.cols)
      ∧ (cur.col % 8 = 0 → cur.col + 8 ≤ cfg.cols → tabCount specParams cfg cur = 8)

/-- The least duration of each command (R210, an inference of the spec from the delays R10): every WRITE counts
2 * (T_SETUP + T_STROBE + T_HOLD) = 160 microseconds. -/
def Obligations.CommandDurations : Prop :=
  ∀ (pins : PinMap) (cfg : DisplayConfig) (cur : Cursor) (c p : Byte),
    let d := fun i => microsDuration (itemsMicros specParams pins (expand specParams cfg cur i).items)
    d .reset = 36120 ∧ d .clear = 2160 ∧ d .home = 2160 ∧ (0 < cur.col → d .bksp = 160)
      ∧ (cur.col = 0 → d .bksp = 800640) ∧ d .nl = 160 ∧ d .cr = 160
      ∧ d .tab = 160 * tabCount specParams cfg cur ∧ d .flash = 800640
      ∧ (cur.col < cfg.cols → d (.char c) = 160) ∧ (¬ cur.col < cfg.cols → d (.char c) = 0) ∧ d (.unk p) = 0

/-! ### The transport -/

/-- SET (R101): the Set event, and the line at the level driven if the device acknowledges; at U, with the TRANSIENT_IO
warning directly after the event, if it does not (D19). Every other line and every other piece of state is unchanged, but
for the answer used up. The answer is the oldest scripted one or a free one (log 3). -/
def Obligations.SetDrivesItsLine : Prop :=
  ∀ (s : State) (p : Line) (v : Bool), linesCanonical s.out →
    let t := perform (.setPin p v) s
    (s.nextAnswer = .ok →
        t = { s.dropAnswer with trace := s.trace ++ [.setPin p v], out := t.out }
          ∧ readLine t.out p = (if v then .high else .low))
      ∧ (s.nextAnswer = .fail →
        t = { s.dropAnswer with trace := s.trace ++ [.setPin p v, .warn (.transientIo p v)], out := t.out }
          ∧ readLine t.out p = .unknown)
      ∧ (∀ q, q ≠ p → readLine t.out q = readLine s.out q)
      ∧ linesCanonical t.out

/-- CFG (R100): the Cfg event and one answer of the device, scripted or free; a refusal is the fatal CONFIG_ERROR naming
the line; no level changes. The answer is the oldest scripted one, or where none is scripted the free one at the counter,
and asking uses up that one alone (R171; log 3). -/
def Obligations.CfgAsksTheDevice : Prop :=
  (∀ (s : State) (p : Line),
    (s.nextAnswer = .ok → perform (.cfgPin p) s = { s.dropAnswer with trace := s.trace ++ [.cfgPin p] })
      ∧ (s.nextAnswer = .fail →
        perform (.cfgPin p) s = raiseFatal (.configError p) { s.dropAnswer with trace := s.trace ++ [.cfgPin p] })
      ∧ (perform (.cfgPin p) s).out = s.out)
    ∧ ∀ s : State,
      (∀ a as, s.answers = a :: as → s.nextAnswer = a ∧ s.dropAnswer = { s with answers := as })
        ∧ (s.answers = [] → s.nextAnswer = Config.freeAnswer s.draws ∧ s.dropAnswer = { s with draws := s.draws + 1 })

/-- OPEN and RELEASE (R104): the Open event and, by the device's answer, scripted or free (log 3), `held` set or the
fatal OPEN_ERROR naming the device; the Release event and `held` cleared, which cannot fail. -/
def Obligations.OpenAndReleaseOwnTheDevice : Prop :=
  ∀ (s : State) (dev : Device),
    (s.nextAnswer = .ok →
        perform (.openDev dev) s = { s.dropAnswer with trace := s.trace ++ [.openDev dev], held := true })
      ∧ (s.nextAnswer = .fail →
        perform (.openDev dev) s
          = raiseFatal (.openError dev) { s.dropAnswer with trace := s.trace ++ [.openDev dev] })
      ∧ perform .release s = { s with trace := s.trace ++ [.release], held := false }

/-- WAIT emits its event and changes no level (R103); a warning's event is its whole record (R173, D28), with the code 3
for TRANSIENT_IO and 4 for UNKNOWN_COMMAND (R170; the numbers are D18). -/
def Obligations.WaitAndWarnOnlyEmit : Prop :=
  (∀ (s : State) (t : Micros) (w : WarnInfo),
    perform (.wait t) s = { s with trace := s.trace ++ [.wait t] }
      ∧ perform (.warn w) s = { s with trace := s.trace ++ [.warn w] }
      ∧ raiseWarning w s = { s with trace := s.trace ++ [.warn w] })
    ∧ (∀ (p : Line) (v : Bool), warnCode (.transientIo p v) = 3) ∧ ∀ p : Byte, warnCode (.unknownCommand p) = 4

/-- Unbound roles (R102, D7): SET and CFG of one are no micro-operation at all; in a valid pin map only R/W and BL can be
unbound (R22, R23). -/
def Obligations.UnboundRolesAreNotDriven : Prop :=
  (∀ (pins : PinMap) (r : Role) (v : Bool), lineOf pins r = none → setRole pins r v = [] ∧ cfgRole pins r = [])
    ∧ (∀ (par : Params) (pins : PinMap) (r : Role), pinMapValid par pins = true → lineOf pins r = none →
        r = .readWrite ∨ r = .backlight)

/-- The nibble order (R59): upper nibble first, bit 7 on DAT3 down to bit 4 on DAT0, then bit 3 on DAT3 down to bit 0 on
DAT0, the same for instruction and data bytes. The order of the four SETs, and R/W and RS before the nibbles, are R106's
with D6. -/
def Obligations.NibblesCrossUpperFirst : Prop :=
  ∀ (par : Params) (pins : PinMap) (rs : Bool) (b : Byte) (d : Line), pins.dat0 = some d →
    driveNibble pins (upperNibble b)
        = [.setPin (d + 3) (b.getLsbD 7), .setPin (d + 2) (b.getLsbD 6), .setPin (d + 1) (b.getLsbD 5),
            .setPin d (b.getLsbD 4)]
      ∧ driveNibble pins (lowerNibble b)
        = [.setPin (d + 3) (b.getLsbD 3), .setPin (d + 2) (b.getLsbD 2), .setPin (d + 1) (b.getLsbD 1),
            .setPin d (b.getLsbD 0)]
      ∧ writeMicros par pins rs b
        = setRole pins .readWrite false ++ setRole pins .regSel rs ++ sendNibble par pins (upperNibble b)
            ++ sendNibble par pins (lowerNibble b)

/-- The event list of a WRITE on the bound lines (R106, R107; the order of SETs with no wait between them is D6), the R/W
step left out where R/W is unbound (R102). -/
def Obligations.WriteIsItsSixSteps : Prop :=
  ∀ (par : Params) (pins : PinMap) (rs : Bool) (b : Byte) (r e d : Line),
    pins.regSel = some r → pins.enable = some e → pins.dat0 = some d →
      writeMicros par pins rs b
        = (match pins.readWrite with
            | some w => [Micro.setPin w false]
            | none => [])
          ++ [.setPin r rs,
            .setPin (d + 3) (b.getLsbD 7), .setPin (d + 2) (b.getLsbD 6), .setPin (d + 1) (b.getLsbD 5),
            .setPin d (b.getLsbD 4),
            .wait par.timing.setup, .setPin e true, .wait par.timing.strobe, .setPin e false, .wait par.timing.hold,
            .setPin (d + 3) (b.getLsbD 3), .setPin (d + 2) (b.getLsbD 2), .setPin (d + 1) (b.getLsbD 1),
            .setPin d (b.getLsbD 0),
            .wait par.timing.setup, .setPin e true, .wait par.timing.strobe, .setPin e false, .wait par.timing.hold]

/-- A WRITE run by the sequencer latches its pair (rs, b) if every SET was acknowledged, and Corrupt if one failed
(R109, D34; `latched` is the model's reading of a trace, log 12). A termination from the rise of E in its first strobe to
before the fall of E in its second leaves the LCD's nibble pairing unknown (R205; the bounds inside the strobes are
log 23). -/
def Obligations.WriteLatchesItsPairOrCorrupt : Prop :=
  ∀ (s : State) (rs : Bool) (b : Byte) (rest : List Micro),
    Undisturbed s → s.mode = .init ∨ s.mode = .busy → pinMapValid s.par s.pins = true →
      s.seq = writeMicros s.par s.pins rs b ++ rest →
        (∃ (t : State) (evs : List Event),
          runSteps (writeMicros s.par s.pins rs b).length s = .next t
            ∧ t.trace = s.trace ++ evs
            ∧ latched s.pins evs = [if hasTransientIo evs then .corrupt else .pair rs b])
        ∧ ∀ k, (writeMicros s.par s.pins rs b).length ≤ k + 12 → k + 2 ≤ (writeMicros s.par s.pins rs b).length →
          ∃ t : State, runSteps k s = .next t ∧ (terminate t).pairingUnknown = true

/-- The backlight is driven by no command: no SET of any command's expansion addresses the BL line (R120, R200; D16). -/
def Obligations.CommandsLeaveTheBacklight : Prop :=
  ∀ (s t : State) (i : Instr) (p : Line), pinMapValid s.par s.pins = true → s.pins.backlight = some p →
    i.isCommand = true → exec i s = .next t → ∀ m ∈ t.seq, microLine m ≠ some p

/-! ### Runs of a command -/

/-- A command runs to completion (R31, R105): from any BUSY state that holds SETs, WAITs and WARNs, as many steps as it
holds micro-operations leave the block IDLE with the cursor committed, whatever the device answers, and the Cfg, Set and
Wait events are those of the list. -/
def Obligations.BusyRunsToCompletion : Prop :=
  ∀ s : State, Undisturbed s → s.mode = .busy → s.seq ≠ [] → s.seq.all isQuiet = true →
    ∃ t : State, runSteps s.seq.length s = .next t
      ∧ t.mode = .idle ∧ t.cur = s.curNext ∧ t.seq = [] ∧ t.par = s.par ∧ t.cfg = s.cfg ∧ t.pins = s.pins
      ∧ t.held = s.held ∧ t.fatalInfo = s.fatalInfo ∧ t.offers = s.offers
      ∧ pinEvents t.trace = pinEvents s.trace ++ s.seq.flatMap microPinEvents

/-- Every offered command word completes (R130, R154): from IDLE, one step of acceptance and one for each
micro-operation leave the block IDLE again, the word taken, the cursor where the command's rule puts it, and the events
those of its expansion, whatever the device answers. -/
def Obligations.OfferedCommandCompletes : Prop :=
  ∀ (s : State) (w : CommandWord) (rest : List HostOp),
    Undisturbed s → s.mode = .idle → s.offers = .command w :: rest →
      let x := expand s.par s.cfg s.cur (decodeCommand w)
      ∃ t : State,
        runSteps (1 + (itemsMicros s.par s.pins x.items).length) s = .next t
          ∧ t.mode = .idle ∧ t.cur = x.next ∧ t.seq = [] ∧ t.offers = rest ∧ t.par = s.par ∧ t.cfg = s.cfg
          ∧ t.pins = s.pins ∧ t.held = s.held ∧ t.fatalInfo = s.fatalInfo
          ∧ pinEvents t.trace = pinEvents s.trace ++ (itemsMicros s.par s.pins x.items).flatMap microPinEvents

/-- What the LCD receives from a command (R109, R205): where none of its SETs failed, and so wherever the nibble pairing is
known at its end, the latched writes of its run are the WRITEs of its expansion in order (the premise on failed SETs is
D34; log 12). The pairing is unknown once a SET fails, stays known while none does, and a RESET restores it unless one of
its own SETs fails (that last clause is log 23): after a RESET the trace since the last completed RESET is its own. -/
def Obligations.CommandLatchesItsWrites : Prop :=
  ∀ (s : State) (w : CommandWord) (rest : List HostOp),
    Undisturbed s → s.mode = .idle → s.offers = .command w :: rest → pinMapValid s.par s.pins = true →
      let x := expand s.par s.cfg s.cur (decodeCommand w)
      ∃ (t : State) (evs : List Event),
        runSteps (1 + (itemsMicros s.par s.pins x.items).length) s = .next t
          ∧ t.trace = s.trace ++ evs
          ∧ (hasTransientIo evs = false → latched s.pins evs = itemLatches x.items)
          ∧ (t.pairingUnknown = false → latched s.pins evs = itemLatches x.items)
          ∧ (hasTransientIo evs = true → t.pairingUnknown = true)
          ∧ (s.pairingUnknown = false → hasTransientIo evs = false → t.pairingUnknown = false)
          ∧ (decodeCommand w = .reset → t.sinceReset = some evs ∧ t.pairingUnknown = hasTransientIo evs)

/-- The device's answers change only levels and warnings (R130, R172): two runs of the same BUSY state that differ in the
answers alone are, after every number of steps, in the same mode with the same list, cursor and pin events. -/
def Obligations.AnswersNeverSteerACommand : Prop :=
  ∀ (s : State) (k : Nat) (as bs : List Answer) (m n : Nat),
    Undisturbed s → s.mode = .busy → s.seq.all isQuiet = true → k ≤ s.seq.length →
      ∃ t u : State,
        runSteps k { s with answers := as, draws := m } = .next t
          ∧ runSteps k { s with answers := bs, draws := n } = .next u
          ∧ t.mode = u.mode ∧ t.seq = u.seq ∧ t.cur = u.cur ∧ t.held = u.held ∧ t.fatalInfo = u.fatalInfo
          ∧ pinEvents t.trace = pinEvents u.trace

/-! ### Exceptions -/

/-- Fatal entry (R174): the Fatal event, then Release where the device is held (the order is D27), the list discarded,
the error recorded, the device not held, mode FATAL; nothing else changes. The recorded code is 1 for OPEN_ERROR and 2 for
CONFIG_ERROR (R170; the numbers are D18). -/
def Obligations.FatalEntry : Prop :=
  (∀ (s : State) (f : FatalInfo),
    raiseFatal f s
      = { s with
          trace := s.trace ++ .fatal f :: (if s.held then [.release] else [])
          held := false
          seq := []
          fatalInfo := some f
          mode := .fatal })
    ∧ (∀ dev : Device, fatalCode (.openError dev) = 1) ∧ ∀ p : Line, fatalCode (.configError p) = 2

/-- A failing OPEN or CFG of INITIALIZE ends it in one step (R100, R104, R174, R175): the failing event stands, the Fatal
event follows, Release only where the device was held, and no later micro-operation runs. The failing answer is scripted or
free (log 3). -/
def Obligations.SetupFailureIsFatal : Prop :=
  ∀ (s : State) (rest : List Micro),
    Undisturbed s → s.mode = .init → s.nextAnswer = .fail →
      (∀ dev, s.held = false → s.seq = .openDev dev :: rest →
        step s = .next
          { s.dropAnswer with trace := s.trace ++ [.openDev dev, .fatal (.openError dev)], seq := []
                              fatalInfo := some (.openError dev), mode := .fatal })
        ∧ (∀ p, s.held = true → s.seq = .cfgPin p :: rest →
          step s = .next
            { s.dropAnswer with trace := s.trace ++ [.cfgPin p, .fatal (.configError p), .release], seq := []
                                held := false, fatalInfo := some (.configError p), mode := .fatal })

/-- FATAL is terminal (R176): no step leaves it (only the host's termination, R153, is left to happen; its form is log
5), no instruction is accepted in it, RESET included, and a warning transfers no control. -/
def Obligations.FatalIsTerminal : Prop :=
  (∀ s t : State, s.mode = .fatal → step s = .next t → t = terminate s ∧ t.mode = .fatal)
    ∧ (∀ (s t : State) (i : Instr), s.mode = .fatal → exec i s ≠ .next t)
    ∧ (∀ (s : State) (w : WarnInfo), (raiseWarning w s).mode = s.mode ∧ (raiseWarning w s).seq = s.seq)

/-! ### The lifecycle -/

/-- INITIALIZE (R150): in UNINIT, with a valid configuration and pin map, the block samples both and holds the list
OPEN, CFG and SET 0 of each bound role in order (D15), the backlight default (D16), the optional power-on wait (D25)
and RESET's expansion. The list of offers it is taken from is the model's (log 4). -/
def Obligations.StartIsAccepted : Prop :=
  ∀ (s : State) (dev : Device) (cfg : DisplayConfig) (pins : PinMap) (rest : List HostOp),
    Undisturbed s → s.mode = .uninit → s.offers = .start dev cfg pins :: rest → configValid s.par cfg = true →
      pinMapValid s.par pins = true →
        step s = .next
          { s with
            cfg := cfg, pins := pins, mode := .init, curNext := { row := 0, col := 0 }, offers := rest
            seq := [.openDev dev]
              ++ [Role.regSel, .readWrite, .enable, .backlight, .dat0, .dat1, .dat2, .dat3].flatMap
                  (fun r => match lineOf pins r with
                    | some p => [.cfgPin p, .setPin p false]
                    | none => [])
              ++ (match pins.backlight with
                  | some p => if cfg.blDefaultOn then [.setPin p true] else []
                  | none => [])
              ++ (if 0 < s.par.tPowerOn then [.wait s.par.tPowerOn] else [])
              ++ itemsMicros s.par pins (expand s.par cfg s.cur .reset).items }

/-- INITIALIZE is refused outside UNINIT, with a configuration outside R8, and with a pin map outside R23 (R21, R23,
R156; D22, D30, D35). Which refusal is named where more than one applies, the mode's before the configuration's and
that before the pin map's, is the model's choice (log 19). Legal are LINES 1, 2 or 4, COLS > 0 with LINES * COLS <=
80, WIDTH 4. -/
def Obligations.StartIsRefused : Prop :=
  (∀ (s : State) (dev : Device) (cfg : DisplayConfig) (pins : PinMap), s.mode ≠ .uninit →
      acceptOffer (.start dev cfg pins) s = .refused (.alreadyStarted s.mode))
    ∧ (∀ (s : State) (dev : Device) (cfg : DisplayConfig) (pins : PinMap), s.mode = .uninit → s.par = specParams →
        ¬ ((cfg.lines = 1 ∨ cfg.lines = 2 ∨ cfg.lines = 4) ∧ 0 < cfg.cols ∧ cfg.lines * cfg.cols ≤ 80 ∧ cfg.width = 4) →
        acceptOffer (.start dev cfg pins) s = .refused .badConfig)
    ∧ (∀ (s : State) (dev : Device) (cfg : DisplayConfig) (pins : PinMap), s.mode = .uninit →
        configValid s.par cfg = true →
        (pins.regSel = none ∨ pins.enable = none ∨ pins.dat0 = none ∨ ¬ (boundLines pins).Nodup) →
        acceptOffer (.start dev cfg pins) s = .refused .badPinMap)

/-- A successful INITIALIZE (R150, R151): with every answer ok the block ends IDLE, the cursor (0, 0), the device held,
no warning recorded, R/W, RS, E and DAT3..DAT1 low, DAT0 high, and the backlight at its default. That the last byte is
0x01 is the default LCD_OP. -/
def Obligations.StartSucceeds : Prop :=
  ∀ (s : State) (dev : Device) (cfg : DisplayConfig) (pins : PinMap) (rest : List HostOp) (as : List Answer),
    Undisturbed s → s.mode = .uninit → s.offers = .start dev cfg pins :: rest → configValid s.par cfg = true →
      pinMapValid s.par pins = true → s.par.lcdOp.clearDisplay = 0x01#8 →
      s.answers = List.replicate (requests (startMicros s.par dev cfg pins)) .ok ++ as →
        ∃ (t : State) (evs : List Event),
          runSteps (1 + (startMicros s.par dev cfg pins).length) s = .next t
            ∧ t.mode = .idle ∧ t.cur = { row := 0, col := 0 } ∧ t.held = true ∧ t.seq = [] ∧ t.offers = rest
            ∧ t.answers = as ∧ t.trace = s.trace ++ evs ∧ hasTransientIo evs = false
            ∧ (∀ p, lineOf pins .readWrite = some p → readLine t.out p = .low)
            ∧ (∀ r, r ∈ [Role.regSel, .enable, .dat3, .dat2, .dat1] → ∀ p, lineOf pins r = some p →
                readLine t.out p = .low)
            ∧ (∀ p, lineOf pins .dat0 = some p → readLine t.out p = .high)
            ∧ (∀ p, lineOf pins .backlight = some p →
                readLine t.out p = (if cfg.blDefaultOn then .high else .low))

/-- SHUTDOWN (R152): in IDLE the Release event, `held` cleared, mode OFF and no pin driven (D20), in one step (log 9);
refused in every other mode. -/
def Obligations.ShutdownReleases : Prop :=
  (∀ (s : State) (rest : List HostOp), Undisturbed s → s.mode = .idle → s.offers = .shutdown :: rest →
      step s = .next
        { s with trace := s.trace ++ [.release], held := false, mode := .off, seq := [], offers := rest })
    ∧ (∀ s : State, s.mode ≠ .idle → acceptOffer .shutdown s = .refused (.notIdle s.mode))

/-- Host termination (R153, D21): it falls at a step boundary in any mode, emits nothing, changes nothing the block
holds, and afterwards the block takes no step. The countdown is the model's (log 5), the stop after it a fault of the
model (log 6). That the run then counts as cut also where it had ended before, in FATAL, OFF or a finished IDLE, is
the model's choice (log 22). -/
def Obligations.TerminationCutsTheBlock : Prop :=
  ∀ s : State,
    (s.cut = false → s.termIn = some 0 → step s = .next { s with cut := true, termIn := none })
      ∧ (s.cut = true → step s = .fault .terminated)
      ∧ (s.cut = true → s.runStatus = .cut)

/-- With nothing offered the block waits in UNINIT and IDLE and takes no step in FATAL and OFF (R154, R156, R176; the
stutter and the stop are log 6). -/
def Obligations.BlockWaitsForTheHost : Prop :=
  ∀ s : State, Undisturbed s → s.offers = [] →
    (s.mode = .uninit ∨ s.mode = .idle → step s = .next s)
      ∧ (s.mode = .fatal → step s = .fault .failed) ∧ (s.mode = .off → step s = .fault .released)

/-- How a run ends (R157): complete in OFF, or in IDLE with no further command word offered, whatever else is; failed in
FATAL and never complete; cut by termination and never complete; in INIT or BUSY not over (D21). That a run which had
ended before it was terminated counts as cut is the model's choice (log 22). -/
def Obligations.RunStandings : Prop :=
  ∀ s : State,
    (s.runStatus = .complete ↔ s.cut = false ∧ (s.mode = .off ∨ (s.mode = .idle ∧ ∀ w, HostOp.command w ∉ s.offers)))
      ∧ (s.runStatus = .failed ↔ s.cut = false ∧ s.mode = .fatal)
      ∧ (s.runStatus = .cut ↔ s.cut = true)
      ∧ (s.cut = false → s.mode = .init ∨ s.mode = .busy → s.runStatus = .running)

/-! ### Reset and invariants -/

/-- The power-on state (R38, R200): UNINIT, nothing to run, nothing held, every line at U, an empty trace, no fatal
error. The power-on mode is D26. -/
def Obligations.PowerOnState : Prop :=
  State.reset.mode = .uninit ∧ State.reset.seq = [] ∧ State.reset.held = false ∧ State.reset.trace = []
    ∧ State.reset.fatalInfo = none ∧ ∀ p, readLine State.reset.out p = .unknown

/-- The timing parameters and the constants at the values the spec gives (R10, R11), and they never change (their
place in the state is log 1). That SPACE is 0x20 is the ASCII code the spec takes from general knowledge (R11, G8;
PRESUMED, log 14). -/
def Obligations.ParametersHoldTheirValues : Prop :=
  (State.reset.par.timing.setup = 20 ∧ State.reset.par.timing.strobe = 40 ∧ State.reset.par.timing.hold = 20
      ∧ State.reset.par.timing.functionSet = 10000 ∧ State.reset.par.timing.control = 1000
      ∧ State.reset.par.timing.clear = 2000 ∧ State.reset.par.timing.home = 2000
      ∧ State.reset.par.timing.flash = 200000 ∧ State.reset.par.bank2Offset = 0x40
      ∧ State.reset.par.ddramCapacity = 80 ∧ State.reset.par.tabStop = 8 ∧ State.reset.par.space = 0x20#8)
    ∧ ∀ s t : State, step s = .next t → t.par = s.par

/-- The configuration and the pin map are set once, by INITIALIZE, and immutable after it (R20, R22, R156). -/
def Obligations.ConfigurationIsImmutable : Prop :=
  ∀ s t : State, step s = .next t → s.mode ≠ .uninit →
    t.cfg = s.cfg ∧ t.pins = s.pins ∧ t.mode ≠ .uninit

/-- The invariant holds at power-on (R38). It asks nothing of the values log 2 chooses for the configuration, the pin
map and the cursors. -/
def Obligations.PowerOnMeetsTheInvariant : Prop := Inv State.reset

/-- Every step keeps the invariant, from every state that meets it: canonical levels on bound lines only (R34, R51;
the list that holds them is log 10), a list exactly while the block runs (R30), the device held exactly while it
should be and released exactly once (R32, R104), the cursor in range (R25, R26, R28), a fatal error recorded exactly
in FATAL (R35). -/
def Obligations.StepKeepsTheInvariant : Prop :=
  ∀ s t : State, Inv s → step s = .next t → Inv t

/-- Under the invariant and the spec's capacity the cursor fits its registers, 7 bits of column and 2 of row (R25,
R26, an inference of the spec from R20; the model holds naturals, log 16). -/
def Obligations.CursorFitsItsRegisters : Prop :=
  ∀ s : State, Inv s → s.par = specParams → s.mode = .idle ∨ s.mode = .busy →
    s.cur.col ≤ 80 ∧ s.cur.col < 2 ^ 7 ∧ s.cur.row < 2 ^ 2
end

