-- ==== Sys2Proof/Laws/State.lean ====
section
/-! SUPPORT. One lemma per field per named update of the state, so that no proof unfolds a record update. -/

namespace Sys2Proof.Machine

/-! ### emit -/

@[simp] theorem emit_par (s : State) (e : Event) : (s.emit e).par = s.par := rfl
@[simp] theorem emit_mode (s : State) (e : Event) : (s.emit e).mode = s.mode := rfl
@[simp] theorem emit_cfg (s : State) (e : Event) : (s.emit e).cfg = s.cfg := rfl
@[simp] theorem emit_pins (s : State) (e : Event) : (s.emit e).pins = s.pins := rfl
@[simp] theorem emit_cur (s : State) (e : Event) : (s.emit e).cur = s.cur := rfl
@[simp] theorem emit_curNext (s : State) (e : Event) : (s.emit e).curNext = s.curNext := rfl
@[simp] theorem emit_seq (s : State) (e : Event) : (s.emit e).seq = s.seq := rfl
@[simp] theorem emit_held (s : State) (e : Event) : (s.emit e).held = s.held := rfl
@[simp] theorem emit_fatalInfo (s : State) (e : Event) : (s.emit e).fatalInfo = s.fatalInfo := rfl
@[simp] theorem emit_out (s : State) (e : Event) : (s.emit e).out = s.out := rfl
@[simp] theorem emit_trace (s : State) (e : Event) : (s.emit e).trace = s.trace ++ [e] := rfl
@[simp] theorem emit_offers (s : State) (e : Event) : (s.emit e).offers = s.offers := rfl
@[simp] theorem emit_answers (s : State) (e : Event) : (s.emit e).answers = s.answers := rfl
@[simp] theorem emit_draws (s : State) (e : Event) : (s.emit e).draws = s.draws := rfl
@[simp] theorem emit_termIn (s : State) (e : Event) : (s.emit e).termIn = s.termIn := rfl
@[simp] theorem emit_cut (s : State) (e : Event) : (s.emit e).cut = s.cut := rfl

/-! ### driveLine -/

@[simp] theorem driveLine_par (s : State) (p : Line) (v : Bool) : (s.driveLine p v).par = s.par := rfl
@[simp] theorem driveLine_mode (s : State) (p : Line) (v : Bool) : (s.driveLine p v).mode = s.mode := rfl
@[simp] theorem driveLine_cfg (s : State) (p : Line) (v : Bool) : (s.driveLine p v).cfg = s.cfg := rfl
@[simp] theorem driveLine_pins (s : State) (p : Line) (v : Bool) : (s.driveLine p v).pins = s.pins := rfl
@[simp] theorem driveLine_cur (s : State) (p : Line) (v : Bool) : (s.driveLine p v).cur = s.cur := rfl
@[simp] theorem driveLine_curNext (s : State) (p : Line) (v : Bool) : (s.driveLine p v).curNext = s.curNext := rfl
@[simp] theorem driveLine_seq (s : State) (p : Line) (v : Bool) : (s.driveLine p v).seq = s.seq := rfl
@[simp] theorem driveLine_held (s : State) (p : Line) (v : Bool) : (s.driveLine p v).held = s.held := rfl
@[simp] theorem driveLine_fatalInfo (s : State) (p : Line) (v : Bool) : (s.driveLine p v).fatalInfo = s.fatalInfo := rfl
@[simp] theorem driveLine_out (s : State) (p : Line) (v : Bool) : (s.driveLine p v).out = putLine s.out p v := rfl
@[simp] theorem driveLine_trace (s : State) (p : Line) (v : Bool) : (s.driveLine p v).trace = s.trace := rfl
@[simp] theorem driveLine_offers (s : State) (p : Line) (v : Bool) : (s.driveLine p v).offers = s.offers := rfl
@[simp] theorem driveLine_answers (s : State) (p : Line) (v : Bool) : (s.driveLine p v).answers = s.answers := rfl
@[simp] theorem driveLine_draws (s : State) (p : Line) (v : Bool) : (s.driveLine p v).draws = s.draws := rfl
@[simp] theorem driveLine_termIn (s : State) (p : Line) (v : Bool) : (s.driveLine p v).termIn = s.termIn := rfl
@[simp] theorem driveLine_cut (s : State) (p : Line) (v : Bool) : (s.driveLine p v).cut = s.cut := rfl

/-! ### loseLine -/

@[simp] theorem loseLine_par (s : State) (p : Line) : (s.loseLine p).par = s.par := rfl
@[simp] theorem loseLine_mode (s : State) (p : Line) : (s.loseLine p).mode = s.mode := rfl
@[simp] theorem loseLine_cfg (s : State) (p : Line) : (s.loseLine p).cfg = s.cfg := rfl
@[simp] theorem loseLine_pins (s : State) (p : Line) : (s.loseLine p).pins = s.pins := rfl
@[simp] theorem loseLine_cur (s : State) (p : Line) : (s.loseLine p).cur = s.cur := rfl
@[simp] theorem loseLine_curNext (s : State) (p : Line) : (s.loseLine p).curNext = s.curNext := rfl
@[simp] theorem loseLine_seq (s : State) (p : Line) : (s.loseLine p).seq = s.seq := rfl
@[simp] theorem loseLine_held (s : State) (p : Line) : (s.loseLine p).held = s.held := rfl
@[simp] theorem loseLine_fatalInfo (s : State) (p : Line) : (s.loseLine p).fatalInfo = s.fatalInfo := rfl
@[simp] theorem loseLine_out (s : State) (p : Line) : (s.loseLine p).out = dropLine s.out p := rfl
@[simp] theorem loseLine_trace (s : State) (p : Line) : (s.loseLine p).trace = s.trace := rfl
@[simp] theorem loseLine_offers (s : State) (p : Line) : (s.loseLine p).offers = s.offers := rfl
@[simp] theorem loseLine_answers (s : State) (p : Line) : (s.loseLine p).answers = s.answers := rfl
@[simp] theorem loseLine_draws (s : State) (p : Line) : (s.loseLine p).draws = s.draws := rfl
@[simp] theorem loseLine_termIn (s : State) (p : Line) : (s.loseLine p).termIn = s.termIn := rfl
@[simp] theorem loseLine_cut (s : State) (p : Line) : (s.loseLine p).cut = s.cut := rfl

/-! ### setHeld -/

@[simp] theorem setHeld_par (s : State) (v : Bool) : (s.setHeld v).par = s.par := rfl
@[simp] theorem setHeld_mode (s : State) (v : Bool) : (s.setHeld v).mode = s.mode := rfl
@[simp] theorem setHeld_cfg (s : State) (v : Bool) : (s.setHeld v).cfg = s.cfg := rfl
@[simp] theorem setHeld_pins (s : State) (v : Bool) : (s.setHeld v).pins = s.pins := rfl
@[simp] theorem setHeld_cur (s : State) (v : Bool) : (s.setHeld v).cur = s.cur := rfl
@[simp] theorem setHeld_curNext (s : State) (v : Bool) : (s.setHeld v).curNext = s.curNext := rfl
@[simp] theorem setHeld_seq (s : State) (v : Bool) : (s.setHeld v).seq = s.seq := rfl
@[simp] theorem setHeld_held (s : State) (v : Bool) : (s.setHeld v).held = v := rfl
@[simp] theorem setHeld_fatalInfo (s : State) (v : Bool) : (s.setHeld v).fatalInfo = s.fatalInfo := rfl
@[simp] theorem setHeld_out (s : State) (v : Bool) : (s.setHeld v).out = s.out := rfl
@[simp] theorem setHeld_trace (s : State) (v : Bool) : (s.setHeld v).trace = s.trace := rfl
@[simp] theorem setHeld_offers (s : State) (v : Bool) : (s.setHeld v).offers = s.offers := rfl
@[simp] theorem setHeld_answers (s : State) (v : Bool) : (s.setHeld v).answers = s.answers := rfl
@[simp] theorem setHeld_draws (s : State) (v : Bool) : (s.setHeld v).draws = s.draws := rfl
@[simp] theorem setHeld_termIn (s : State) (v : Bool) : (s.setHeld v).termIn = s.termIn := rfl
@[simp] theorem setHeld_cut (s : State) (v : Bool) : (s.setHeld v).cut = s.cut := rfl

/-! ### setSeq -/

@[simp] theorem setSeq_par (s : State) (q : List Micro) : (s.setSeq q).par = s.par := rfl
@[simp] theorem setSeq_mode (s : State) (q : List Micro) : (s.setSeq q).mode = s.mode := rfl
@[simp] theorem setSeq_cfg (s : State) (q : List Micro) : (s.setSeq q).cfg = s.cfg := rfl
@[simp] theorem setSeq_pins (s : State) (q : List Micro) : (s.setSeq q).pins = s.pins := rfl
@[simp] theorem setSeq_cur (s : State) (q : List Micro) : (s.setSeq q).cur = s.cur := rfl
@[simp] theorem setSeq_curNext (s : State) (q : List Micro) : (s.setSeq q).curNext = s.curNext := rfl
@[simp] theorem setSeq_seq (s : State) (q : List Micro) : (s.setSeq q).seq = q := rfl
@[simp] theorem setSeq_held (s : State) (q : List Micro) : (s.setSeq q).held = s.held := rfl
@[simp] theorem setSeq_fatalInfo (s : State) (q : List Micro) : (s.setSeq q).fatalInfo = s.fatalInfo := rfl
@[simp] theorem setSeq_out (s : State) (q : List Micro) : (s.setSeq q).out = s.out := rfl
@[simp] theorem setSeq_trace (s : State) (q : List Micro) : (s.setSeq q).trace = s.trace := rfl
@[simp] theorem setSeq_offers (s : State) (q : List Micro) : (s.setSeq q).offers = s.offers := rfl
@[simp] theorem setSeq_answers (s : State) (q : List Micro) : (s.setSeq q).answers = s.answers := rfl
@[simp] theorem setSeq_draws (s : State) (q : List Micro) : (s.setSeq q).draws = s.draws := rfl
@[simp] theorem setSeq_termIn (s : State) (q : List Micro) : (s.setSeq q).termIn = s.termIn := rfl
@[simp] theorem setSeq_cut (s : State) (q : List Micro) : (s.setSeq q).cut = s.cut := rfl

/-! ### terminate -/

@[simp] theorem terminate_par (s : State) : (terminate s).par = s.par := rfl
@[simp] theorem terminate_mode (s : State) : (terminate s).mode = s.mode := rfl
@[simp] theorem terminate_cfg (s : State) : (terminate s).cfg = s.cfg := rfl
@[simp] theorem terminate_pins (s : State) : (terminate s).pins = s.pins := rfl
@[simp] theorem terminate_cur (s : State) : (terminate s).cur = s.cur := rfl
@[simp] theorem terminate_curNext (s : State) : (terminate s).curNext = s.curNext := rfl
@[simp] theorem terminate_seq (s : State) : (terminate s).seq = s.seq := rfl
@[simp] theorem terminate_held (s : State) : (terminate s).held = s.held := rfl
@[simp] theorem terminate_fatalInfo (s : State) : (terminate s).fatalInfo = s.fatalInfo := rfl
@[simp] theorem terminate_out (s : State) : (terminate s).out = s.out := rfl
@[simp] theorem terminate_trace (s : State) : (terminate s).trace = s.trace := rfl
@[simp] theorem terminate_offers (s : State) : (terminate s).offers = s.offers := rfl
@[simp] theorem terminate_answers (s : State) : (terminate s).answers = s.answers := rfl
@[simp] theorem terminate_draws (s : State) : (terminate s).draws = s.draws := rfl
@[simp] theorem terminate_termIn (s : State) : (terminate s).termIn = none := rfl
@[simp] theorem terminate_cut (s : State) : (terminate s).cut = true := rfl

/-! ### raiseWarning -/

@[simp] theorem raiseWarning_par (w : WarnInfo) (s : State) : (raiseWarning w s).par = s.par := rfl
@[simp] theorem raiseWarning_mode (w : WarnInfo) (s : State) : (raiseWarning w s).mode = s.mode := rfl
@[simp] theorem raiseWarning_cfg (w : WarnInfo) (s : State) : (raiseWarning w s).cfg = s.cfg := rfl
@[simp] theorem raiseWarning_pins (w : WarnInfo) (s : State) : (raiseWarning w s).pins = s.pins := rfl
@[simp] theorem raiseWarning_cur (w : WarnInfo) (s : State) : (raiseWarning w s).cur = s.cur := rfl
@[simp] theorem raiseWarning_curNext (w : WarnInfo) (s : State) : (raiseWarning w s).curNext = s.curNext := rfl
@[simp] theorem raiseWarning_seq (w : WarnInfo) (s : State) : (raiseWarning w s).seq = s.seq := rfl
@[simp] theorem raiseWarning_held (w : WarnInfo) (s : State) : (raiseWarning w s).held = s.held := rfl
@[simp] theorem raiseWarning_fatalInfo (w : WarnInfo) (s : State) : (raiseWarning w s).fatalInfo = s.fatalInfo := rfl
@[simp] theorem raiseWarning_out (w : WarnInfo) (s : State) : (raiseWarning w s).out = s.out := rfl
@[simp] theorem raiseWarning_trace (w : WarnInfo) (s : State) : (raiseWarning w s).trace = s.trace ++ [.warn w] := rfl
@[simp] theorem raiseWarning_offers (w : WarnInfo) (s : State) : (raiseWarning w s).offers = s.offers := rfl
@[simp] theorem raiseWarning_answers (w : WarnInfo) (s : State) : (raiseWarning w s).answers = s.answers := rfl
@[simp] theorem raiseWarning_draws (w : WarnInfo) (s : State) : (raiseWarning w s).draws = s.draws := rfl
@[simp] theorem raiseWarning_termIn (w : WarnInfo) (s : State) : (raiseWarning w s).termIn = s.termIn := rfl
@[simp] theorem raiseWarning_cut (w : WarnInfo) (s : State) : (raiseWarning w s).cut = s.cut := rfl

/-! ### dropAnswer: only the answers and the counter of free ones change -/

@[simp] theorem dropAnswer_par (s : State) : s.dropAnswer.par = s.par := by unfold State.dropAnswer; split <;> rfl
@[simp] theorem dropAnswer_mode (s : State) : s.dropAnswer.mode = s.mode := by unfold State.dropAnswer; split <;> rfl
@[simp] theorem dropAnswer_cfg (s : State) : s.dropAnswer.cfg = s.cfg := by unfold State.dropAnswer; split <;> rfl
@[simp] theorem dropAnswer_pins (s : State) : s.dropAnswer.pins = s.pins := by unfold State.dropAnswer; split <;> rfl
@[simp] theorem dropAnswer_cur (s : State) : s.dropAnswer.cur = s.cur := by unfold State.dropAnswer; split <;> rfl
@[simp] theorem dropAnswer_curNext (s : State) : s.dropAnswer.curNext = s.curNext := by unfold State.dropAnswer; split <;> rfl
@[simp] theorem dropAnswer_seq (s : State) : s.dropAnswer.seq = s.seq := by unfold State.dropAnswer; split <;> rfl
@[simp] theorem dropAnswer_held (s : State) : s.dropAnswer.held = s.held := by unfold State.dropAnswer; split <;> rfl
@[simp] theorem dropAnswer_fatalInfo (s : State) : s.dropAnswer.fatalInfo = s.fatalInfo := by unfold State.dropAnswer; split <;> rfl
@[simp] theorem dropAnswer_out (s : State) : s.dropAnswer.out = s.out := by unfold State.dropAnswer; split <;> rfl
@[simp] theorem dropAnswer_trace (s : State) : s.dropAnswer.trace = s.trace := by unfold State.dropAnswer; split <;> rfl
@[simp] theorem dropAnswer_offers (s : State) : s.dropAnswer.offers = s.offers := by unfold State.dropAnswer; split <;> rfl
@[simp] theorem dropAnswer_termIn (s : State) : s.dropAnswer.termIn = s.termIn := by unfold State.dropAnswer; split <;> rfl
@[simp] theorem dropAnswer_cut (s : State) : s.dropAnswer.cut = s.cut := by unfold State.dropAnswer; split <;> rfl

/-! ### raiseFatal -/

@[simp] theorem raiseFatal_par (f : FatalInfo) (s : State) : (raiseFatal f s).par = s.par := by
  unfold raiseFatal releaseIfHeld; cases h : s.held <;> simp [h]
@[simp] theorem raiseFatal_mode (f : FatalInfo) (s : State) : (raiseFatal f s).mode = .fatal := rfl
@[simp] theorem raiseFatal_cfg (f : FatalInfo) (s : State) : (raiseFatal f s).cfg = s.cfg := by
  unfold raiseFatal releaseIfHeld; cases h : s.held <;> simp [h]
@[simp] theorem raiseFatal_pins (f : FatalInfo) (s : State) : (raiseFatal f s).pins = s.pins := by
  unfold raiseFatal releaseIfHeld; cases h : s.held <;> simp [h]
@[simp] theorem raiseFatal_cur (f : FatalInfo) (s : State) : (raiseFatal f s).cur = s.cur := by
  unfold raiseFatal releaseIfHeld; cases h : s.held <;> simp [h]
@[simp] theorem raiseFatal_curNext (f : FatalInfo) (s : State) : (raiseFatal f s).curNext = s.curNext := by
  unfold raiseFatal releaseIfHeld; cases h : s.held <;> simp [h]
@[simp] theorem raiseFatal_seq (f : FatalInfo) (s : State) : (raiseFatal f s).seq = [] := rfl
@[simp] theorem raiseFatal_fatalInfo (f : FatalInfo) (s : State) : (raiseFatal f s).fatalInfo = some f := rfl
@[simp] theorem raiseFatal_out (f : FatalInfo) (s : State) : (raiseFatal f s).out = s.out := by
  unfold raiseFatal releaseIfHeld; cases h : s.held <;> simp [h]
@[simp] theorem raiseFatal_offers (f : FatalInfo) (s : State) : (raiseFatal f s).offers = s.offers := by
  unfold raiseFatal releaseIfHeld; cases h : s.held <;> simp [h]
@[simp] theorem raiseFatal_answers (f : FatalInfo) (s : State) : (raiseFatal f s).answers = s.answers := by
  unfold raiseFatal releaseIfHeld; cases h : s.held <;> simp [h]
@[simp] theorem raiseFatal_draws (f : FatalInfo) (s : State) : (raiseFatal f s).draws = s.draws := by
  unfold raiseFatal releaseIfHeld; cases h : s.held <;> simp [h]
@[simp] theorem raiseFatal_termIn (f : FatalInfo) (s : State) : (raiseFatal f s).termIn = s.termIn := by
  unfold raiseFatal releaseIfHeld; cases h : s.held <;> simp [h]
@[simp] theorem raiseFatal_cut (f : FatalInfo) (s : State) : (raiseFatal f s).cut = s.cut := by
  unfold raiseFatal releaseIfHeld; cases h : s.held <;> simp [h]
@[simp] theorem raiseFatal_held (f : FatalInfo) (s : State) : (raiseFatal f s).held = false := by
  unfold raiseFatal releaseIfHeld; cases h : s.held <;> simp [h]
/-- Fatal entry emits the Fatal event, then Release if the device was held (R174). -/
theorem raiseFatal_trace (f : FatalInfo) (s : State) :
    (raiseFatal f s).trace = s.trace ++ .fatal f :: (if s.held then [.release] else []) := by
  unfold raiseFatal releaseIfHeld; cases h : s.held <;> simp [h]

/-! ### The oldest scripted answer -/

@[simp] theorem nextAnswer_cons (s : State) (a : Answer) (as : List Answer) (h : s.answers = a :: as) :
    s.nextAnswer = a := by unfold State.nextAnswer; rw [h]
@[simp] theorem nextAnswer_emit (s : State) (e : Event) : (s.emit e).nextAnswer = s.nextAnswer := rfl
theorem dropAnswer_answers_cons (s : State) (a : Answer) (as : List Answer) (h : s.answers = a :: as) :
    s.dropAnswer = { s with answers := as } := by unfold State.dropAnswer; rw [h]

end Sys2Proof.Machine
end

