-- ==== Sys2Proof/Laws/Lines.lean ====
section
/-! SUPPORT. The level store (10_state.md R34): a read after a write, every other line left alone, and the canonical
form kept by every operation. -/

namespace Sys2Proof.Machine

/-- A driven line reads as driven. -/
@[simp] theorem readLine_putLine_same (l : List (Line × Bool)) (p : Line) (v : Bool) :
    readLine (putLine l p v) p = levelOf v := by
  induction l with
  | nil => simp [putLine, readLine]
  | cons e rest ih =>
    obtain ⟨q, w⟩ := e
    unfold putLine
    split
    · simp [readLine]
    · split
      · simp [readLine]
      · rename_i h
        simp [readLine, Ne.symm h, ih]

/-- Driving a line leaves every other line alone. -/
theorem readLine_putLine_other (l : List (Line × Bool)) {p q : Line} (v : Bool) (h : q ≠ p) :
    readLine (putLine l p v) q = readLine l q := by
  induction l with
  | nil => simp [putLine, readLine, Ne.symm h]
  | cons e rest ih =>
    obtain ⟨r, w⟩ := e
    unfold putLine
    split
    · simp [readLine, Ne.symm h]
    · split
      · rename_i hpr
        subst hpr
        simp [readLine, Ne.symm h]
      · simp only [readLine]
        rw [ih]

/-- Losing a line leaves every other line alone. -/
theorem readLine_dropLine_other (l : List (Line × Bool)) {p q : Line} (h : q ≠ p) :
    readLine (dropLine l p) q = readLine l q := by
  induction l with
  | nil => rfl
  | cons e rest ih =>
    obtain ⟨r, w⟩ := e
    unfold dropLine
    split
    · rename_i hr
      subst hr
      simp [readLine, Ne.symm h]
    · simp only [readLine]
      rw [ih]

/-- A line below every listed one is at U. -/
theorem readLine_below {l : List (Line × Bool)} {p : Line} (h : ∀ e ∈ l, p < e.1) : readLine l p = .unknown := by
  induction l with
  | nil => rfl
  | cons e rest ih =>
    obtain ⟨r, w⟩ := e
    have hr : r ≠ p := Nat.ne_of_gt (h (r, w) (by simp))
    simp only [readLine, if_neg hr]
    exact ih fun e he => h e (by simp [he])

/-- A lost line is at U, where the store is canonical. -/
theorem readLine_dropLine_same {l : List (Line × Bool)} (p : Line) (h : linesCanonical l) :
    readLine (dropLine l p) p = .unknown := by
  induction l with
  | nil => rfl
  | cons e rest ih =>
    obtain ⟨r, w⟩ := e
    rw [linesCanonical, List.pairwise_cons] at h
    unfold dropLine
    split
    · rename_i hr
      subst hr
      exact readLine_below h.1
    · rename_i hr
      simp only [readLine, if_neg hr]
      exact ih h.2

/-- What a driven store lists. -/
theorem mem_putLine {l : List (Line × Bool)} {p : Line} {v : Bool} {e : Line × Bool} (h : e ∈ putLine l p v) :
    e = (p, v) ∨ e ∈ l := by
  induction l with
  | nil => simpa [putLine] using h
  | cons f rest ih =>
    obtain ⟨q, w⟩ := f
    unfold putLine at h
    split at h
    · simpa using h
    · split at h
      · rcases List.mem_cons.mp h with h | h
        · exact .inl h
        · exact .inr (by simp [h])
      · rcases List.mem_cons.mp h with h | h
        · exact .inr (by simp [h])
        · rcases ih h with h | h
          · exact .inl h
          · exact .inr (by simp [h])

/-- What a store lists after a line is lost. -/
theorem mem_dropLine {l : List (Line × Bool)} {p : Line} {e : Line × Bool} (h : e ∈ dropLine l p) : e ∈ l := by
  induction l with
  | nil => simp [dropLine] at h
  | cons f rest ih =>
    obtain ⟨q, w⟩ := f
    unfold dropLine at h
    split at h
    · simp [h]
    · rcases List.mem_cons.mp h with h | h
      · simp [h]
      · simp [ih h]

/-- Driving a line keeps the canonical form. -/
theorem putLine_canonical {l : List (Line × Bool)} (p : Line) (v : Bool) (h : linesCanonical l) :
    linesCanonical (putLine l p v) := by
  induction l with
  | nil => simp [putLine, linesCanonical]
  | cons f rest ih =>
    obtain ⟨q, w⟩ := f
    rw [linesCanonical, List.pairwise_cons] at h
    unfold putLine
    split
    · rename_i hpq
      rw [linesCanonical, List.pairwise_cons, List.pairwise_cons]
      refine ⟨?_, h⟩
      intro e he
      rcases List.mem_cons.mp he with he | he
      · subst he; exact hpq
      · exact Nat.lt_trans hpq (h.1 e he)
    · split
      · rename_i heq
        subst heq
        rw [linesCanonical, List.pairwise_cons]
        exact h
      · rename_i hlt hne
        rw [linesCanonical, List.pairwise_cons]
        refine ⟨?_, ih h.2⟩
        intro e he
        rcases mem_putLine he with he | he
        · subst he; exact Nat.lt_of_le_of_ne (Nat.le_of_not_lt hlt) (Ne.symm hne)
        · exact h.1 e he

/-- Losing a line keeps the canonical form. -/
theorem dropLine_canonical {l : List (Line × Bool)} (p : Line) (h : linesCanonical l) :
    linesCanonical (dropLine l p) := by
  induction l with
  | nil => simp [dropLine, linesCanonical]
  | cons f rest ih =>
    obtain ⟨q, w⟩ := f
    rw [linesCanonical, List.pairwise_cons] at h
    unfold dropLine
    split
    · exact h.2
    · rw [linesCanonical, List.pairwise_cons]
      exact ⟨fun e he => h.1 e (mem_dropLine he), ih h.2⟩

end Sys2Proof.Machine
end

