-- ==== Sys2Proof/Laws/Transport.lean ====
section
/-! SUPPORT. What a micro-operation and a step of the sequencer can do, said once (40_transport.md R100 to R105). -/

namespace Sys2Proof.Machine

/-! ### What every micro-operation leaves alone -/

/-- The fields no micro-operation writes. -/
theorem perform_frame (m : Micro) (s : State) :
    (perform m s).par = s.par ∧ (perform m s).cfg = s.cfg ∧ (perform m s).pins = s.pins ∧ (perform m s).cur = s.cur
      ∧ (perform m s).curNext = s.curNext ∧ (perform m s).offers = s.offers ∧ (perform m s).termIn = s.termIn
      ∧ (perform m s).cut = s.cut := by
  cases m
  case openDev dev => unfold perform performOpen; simp only [nextAnswer_emit]; cases s.nextAnswer <;> simp
  case cfgPin p => unfold perform performCfg; simp only [nextAnswer_emit]; cases s.nextAnswer <;> simp
  case setPin p v => unfold perform performSet; simp only [nextAnswer_emit]; cases s.nextAnswer <;> simp
  case wait t => simp [perform, performWait]
  case release => simp [perform, performRelease]
  case warn w => simp [perform]
  case fatal f => simp [perform]

/-- A SET, a WAIT or a WARN leaves the lifecycle alone: the mode, `seq`, the ownership and the recorded error. -/
theorem perform_quiet {m : Micro} (hm : isQuiet m = true) (s : State) :
    (perform m s).mode = s.mode ∧ (perform m s).seq = s.seq ∧ (perform m s).held = s.held
      ∧ (perform m s).fatalInfo = s.fatalInfo := by
  cases m <;> simp [isQuiet] at hm
  case setPin p v => unfold perform performSet; simp only [nextAnswer_emit]; cases s.nextAnswer <;> simp
  case wait t => simp [perform, performWait]
  case warn w => simp [perform]

/-- Only a SET writes the level store. -/
theorem perform_out (m : Micro) (s : State) :
    (perform m s).out = s.out ∨ ∃ p v, m = .setPin p v
      ∧ ((perform m s).out = putLine s.out p v ∨ (perform m s).out = dropLine s.out p) := by
  cases m
  case openDev dev => left; unfold perform performOpen; simp only [nextAnswer_emit]; cases s.nextAnswer <;> simp
  case cfgPin p => left; unfold perform performCfg; simp only [nextAnswer_emit]; cases s.nextAnswer <;> simp
  case setPin p v =>
    right
    refine ⟨p, v, rfl, ?_⟩
    unfold perform performSet
    simp only [nextAnswer_emit]
    cases s.nextAnswer <;> simp
  case wait t => left; simp [perform, performWait]
  case release => left; simp [perform, performRelease]
  case warn w => left; simp [perform]
  case fatal f => left; simp [perform]

/-- The pin events a micro-operation emits do not depend on the device's answers (R130). -/
theorem perform_pinEvents (m : Micro) (s : State) :
    pinEvents (perform m s).trace = pinEvents s.trace ++ microPinEvents m := by
  have release : List.filter isPinEvent (if s.held = true then [Event.release] else []) = [] := by
    cases s.held <;> rfl
  cases m
  case openDev dev =>
    unfold perform performOpen; simp only [nextAnswer_emit]
    cases s.nextAnswer <;> simp [pinEvents, isPinEvent, microPinEvents, raiseFatal_trace, release]
  case cfgPin p =>
    unfold perform performCfg; simp only [nextAnswer_emit]
    cases s.nextAnswer <;>
      simp [pinEvents, isPinEvent, microPinEvents, raiseFatal_trace, List.filter_cons, release]
  case setPin p v =>
    unfold perform performSet; simp only [nextAnswer_emit]
    cases s.nextAnswer <;> simp [pinEvents, isPinEvent, microPinEvents, List.filter]
  case wait t => simp [perform, performWait, pinEvents, isPinEvent, microPinEvents]
  case release => simp [perform, performRelease, pinEvents, isPinEvent, microPinEvents]
  case warn w => simp [perform, pinEvents, isPinEvent, microPinEvents]
  case fatal f => simp [perform, pinEvents, isPinEvent, microPinEvents, raiseFatal_trace, release]

/-! ### A SET with a scripted answer -/

/-- An acknowledged SET. -/
theorem performSet_ok (s : State) (p : Line) (v : Bool) (as : List Answer) (h : s.answers = .ok :: as) :
    performSet p v s = { s with trace := s.trace ++ [.setPin p v], out := putLine s.out p v, answers := as } := by
  unfold performSet State.nextAnswer State.dropAnswer State.emit State.driveLine
  simp [h]

/-- A failed SET. -/
theorem performSet_fail (s : State) (p : Line) (v : Bool) (as : List Answer) (h : s.answers = .fail :: as) :
    performSet p v s = { s with trace := s.trace ++ [.setPin p v, .warn (.transientIo p v)],
                                out := dropLine s.out p, answers := as } := by
  unfold performSet State.nextAnswer State.dropAnswer State.emit State.loseLine raiseWarning State.emit
  simp [h]

/-! ### The lines a WRITE addresses -/

/-- A bound role's line is one of the bound lines. -/
theorem mem_boundLines {pins : PinMap} {r : Role} {p : Line} (h : lineOf pins r = some p) : p ∈ boundLines pins := by
  unfold boundLines
  rw [List.mem_filterMap]
  exact ⟨r, by cases r <;> simp [roles], h⟩

/-- SET on a role is a SET of that role's line. -/
theorem mem_setRole {pins : PinMap} {r : Role} {v : Bool} {m : Micro} (h : m ∈ setRole pins r v) :
    ∃ p, lineOf pins r = some p ∧ m = .setPin p v := by
  unfold setRole at h
  split at h
  · rename_i p hp
    exact ⟨p, hp, by simpa using h⟩
  · simp at h

/-- A WRITE holds WAITs, and SETs of the lines of R/W, RS, E and the data. -/
theorem mem_writeMicros {par : Params} {pins : PinMap} {rs : Bool} {b : Byte} {m : Micro}
    (h : m ∈ writeMicros par pins rs b) :
    (∃ t, m = .wait t) ∨ ∃ r p v, r ≠ Role.backlight ∧ lineOf pins r = some p ∧ m = .setPin p v := by
  have hset : ∀ {r : Role} {v : Bool}, r ≠ Role.backlight → m ∈ setRole pins r v →
      ∃ r p v, r ≠ Role.backlight ∧ lineOf pins r = some p ∧ m = .setPin p v := by
    intro r v hr hm
    obtain ⟨p, hp, rfl⟩ := mem_setRole hm
    exact ⟨r, p, v, hr, hp, rfl⟩
  unfold writeMicros sendNibble driveNibble strobe at h
  simp only [List.mem_append, List.mem_singleton] at h
  rcases h with (((h | h) | h) | h)
  · exact .inr (hset (by simp) h)
  · exact .inr (hset (by simp) h)
  all_goals
    rcases h with (((((h | h) | h) | h) | h) | ((h | h) | h)) | h
    · exact .inr (hset (by simp) h)
    · exact .inr (hset (by simp) h)
    · exact .inr (hset (by simp) h)
    · exact .inr (hset (by simp) h)
    · exact .inl ⟨_, h⟩
    · exact .inr (hset (by simp) h)
    · exact .inl ⟨_, h⟩
    · exact .inr (hset (by simp) h)
    · exact .inl ⟨_, h⟩

/-- Every micro-operation of an expansion is quiet. -/
theorem itemsMicros_quiet (par : Params) (pins : PinMap) (items : List Item) :
    (itemsMicros par pins items).all isQuiet = true := by
  rw [List.all_eq_true]
  intro m hm
  unfold itemsMicros at hm
  obtain ⟨it, -, hm⟩ := List.mem_flatMap.mp hm
  cases it with
  | write rs b =>
    rcases mem_writeMicros hm with ⟨t, rfl⟩ | ⟨r, p, v, -, -, rfl⟩ <;> rfl
  | wait t => simp [itemMicros] at hm; subst hm; rfl
  | warn w => simp [itemMicros] at hm; subst hm; rfl

/-- An expansion addresses bound lines only, and never the backlight's. -/
theorem itemsMicros_line {par : Params} {pins : PinMap} {items : List Item} {m : Micro} {p : Line}
    (hm : m ∈ itemsMicros par pins items) (hp : microLine m = some p) :
    ∃ r, r ≠ Role.backlight ∧ lineOf pins r = some p := by
  unfold itemsMicros at hm
  obtain ⟨it, -, hm⟩ := List.mem_flatMap.mp hm
  cases it with
  | write rs b =>
    rcases mem_writeMicros hm with ⟨t, rfl⟩ | ⟨r, q, v, hr, hq, rfl⟩
    · simp [microLine] at hp
    · simp [microLine] at hp; subst hp; exact ⟨r, hr, hq⟩
  | wait t => simp [itemMicros] at hm; subst hm; simp [microLine] at hp
  | warn w => simp [itemMicros] at hm; subst hm; simp [microLine] at hp

/-- A WRITE always holds a WAIT, so its expansion is never empty. -/
theorem writeMicros_ne_nil (par : Params) (pins : PinMap) (rs : Bool) (b : Byte) : writeMicros par pins rs b ≠ [] := by
  unfold writeMicros sendNibble
  simp

/-- Only an empty list of items has an empty expansion. -/
theorem itemsMicros_eq_nil {par : Params} {pins : PinMap} {items : List Item} :
    itemsMicros par pins items = [] ↔ items = [] := by
  cases items with
  | nil => simp [itemsMicros]
  | cons it rest =>
    simp only [itemsMicros, List.flatMap_cons, List.append_eq_nil_iff, reduceCtorEq, iff_false, not_and]
    intro h
    cases it with
    | write rs b => exact absurd h (writeMicros_ne_nil par pins rs b)
    | wait t => simp [itemMicros] at h
    | warn w => simp [itemMicros] at h

end Sys2Proof.Machine
end

