-- ==== Sys2Proof/Laws/Commands.lean ====
section
/-! SUPPORT. What acceptance of a command and the issue of an emitted byte can do (42_lifecycle.md R154;
30_encoding.md R80), said once. -/

namespace Sys2Proof.Machine

/-- In IDLE a command with a non-empty expansion leaves the block BUSY with it. -/
theorem acceptCommand_busy (s : State) (x : Expansion) (hm : s.mode = .idle) (hx : x.items ≠ []) :
    acceptCommand s x
      = .next { s with seq := itemsMicros s.par s.pins x.items, curNext := x.next, mode := .busy } := by
  unfold acceptCommand finishIfEmpty
  simp [hm, itemsMicros_eq_nil, hx]

/-- In IDLE a command with an empty expansion completes in its acceptance (D33). -/
theorem acceptCommand_done (s : State) (x : Expansion) (hm : s.mode = .idle) (hx : x.items = []) :
    acceptCommand s x = .next { s with seq := [], curNext := x.next, cur := x.next } := by
  unfold acceptCommand finishIfEmpty
  simp [hm, hx, itemsMicros, finishSequence]

/-- What acceptance can do when it answers a next state. -/
theorem acceptCommand_cases {s t : State} {x : Expansion} (h : acceptCommand s x = .next t) :
    s.mode = .idle ∧
      ((x.items ≠ [] ∧ t = { s with seq := itemsMicros s.par s.pins x.items, curNext := x.next, mode := .busy })
        ∨ (x.items = [] ∧ t = { s with seq := [], curNext := x.next, cur := x.next })) := by
  have hm : s.mode = .idle := by
    unfold acceptCommand at h
    split at h <;> first | assumption | cases h
  refine ⟨hm, ?_⟩
  by_cases hx : x.items = []
  · rw [acceptCommand_done s x hm hx] at h
    cases h
    exact .inr ⟨hx, rfl⟩
  · rw [acceptCommand_busy s x hm hx] at h
    cases h
    exact .inl ⟨hx, rfl⟩

/-- exec on a command word is the acceptance of its expansion (R130, R154). -/
theorem exec_command {i : Instr} (h : i.isCommand = true) (s : State) :
    exec i s = acceptCommand s (expand s.par s.cfg s.cur i) := by
  cases i <;> first | rfl | simp [Instr.isCommand] at h

/-- The issue of a byte where the sequencer runs. -/
theorem issueInstruction_running (s : State) (b : Byte) (h : s.mode = .init ∨ s.mode = .busy) :
    issueInstruction s b = .next (s.setSeq (s.seq ++ writeMicros s.par s.pins false b)) := by
  unfold issueInstruction
  rcases h with h | h <;> simp [h]

/-- What the issue of a byte can do when it answers a next state. -/
theorem issueInstruction_cases {s t : State} {b : Byte} (h : issueInstruction s b = .next t) :
    (s.mode = .init ∨ s.mode = .busy) ∧ t = s.setSeq (s.seq ++ writeMicros s.par s.pins false b) := by
  unfold issueInstruction at h
  split at h <;> first | (cases h; exact ⟨by simp [*], rfl⟩) | cases h

end Sys2Proof.Machine
end

