-- ==== Sys2Proof/Laws/Observe.lean ====
section
/-! SUPPORT. The part of a trace since the last whole occurrence of a list of pin events (70_reset_and_hazards.md R205),
and the pairing read off it: what each can be, said once. -/

namespace Sys2Proof.Machine

/-! ### pinEvents -/

@[simp] theorem pinEvents_append (a b : List Event) : pinEvents (a ++ b) = pinEvents a ++ pinEvents b := by
  simp [pinEvents]

@[simp] theorem hasTransientIo_append (a b : List Event) :
    hasTransientIo (a ++ b) = (hasTransientIo a || hasTransientIo b) := by
  simp [hasTransientIo]

/-! ### fromLast -/

/-- A trace that begins with a list of pin events holds at least as many. -/
theorem beginsWith_length {pat tr : List Event} (h : beginsWith pat tr = true) :
    pat.length ≤ (pinEvents tr).length := by
  cases tr with
  | nil => simp [beginsWith] at h
  | cons e rest =>
    simp only [beginsWith, Bool.and_eq_true] at h
    exact (List.isPrefixOf_iff_prefix.mp h.2).length_le

/-- What `fromLast` answers is an end of the trace, and begins with the pin events. -/
theorem fromLast_some {pat tr w : List Event} (h : fromLast pat tr = some w) :
    (∃ a, tr = a ++ w) ∧ beginsWith pat w = true := by
  induction tr with
  | nil => cases h
  | cons e rest ih =>
    simp only [fromLast] at h
    split at h
    · rename_i u hu
      cases h
      obtain ⟨⟨a, ha⟩, hb⟩ := ih hu
      exact ⟨⟨e :: a, by rw [ha, List.cons_append]⟩, hb⟩
    · split at h
      · rename_i hb
        cases h
        exact ⟨⟨[], rfl⟩, hb⟩
      · cases h

/-- A trace with too few pin events holds no occurrence. -/
theorem fromLast_short {pat tr : List Event} (h : (pinEvents tr).length < pat.length) : fromLast pat tr = none := by
  cases hw : fromLast pat tr with
  | none => rfl
  | some w =>
    obtain ⟨⟨a, rfl⟩, hb⟩ := fromLast_some hw
    have hl := beginsWith_length hb
    rw [pinEvents_append, List.length_append] at h
    omega

/-- An occurrence in the later part of a trace is the last one of the whole. -/
theorem fromLast_append_some {pat b w : List Event} (a : List Event) (h : fromLast pat b = some w) :
    fromLast pat (a ++ b) = some w := by
  induction a with
  | nil => exact h
  | cons e a ih => simp only [List.cons_append, fromLast, ih]

/-- Where the later part of a trace holds no occurrence, the last one of the whole reaches over all of it. -/
theorem fromLast_append_none {pat b w : List Event} (a : List Event) (hb : fromLast pat b = none)
    (h : fromLast pat (a ++ b) = some w) : ∃ c, w = c ++ b := by
  induction a with
  | nil => rw [List.nil_append, hb] at h; cases h
  | cons e a ih =>
    simp only [List.cons_append, fromLast] at h
    split at h
    · rename_i u hu
      cases h
      exact ih hu
    · split at h
      · cases h
        exact ⟨e :: a, rfl⟩
      · cases h

/-- A beginning stays one when the trace goes on. -/
theorem beginsWith_append {pat tr : List Event} (b : List Event) (h : beginsWith pat tr = true) :
    beginsWith pat (tr ++ b) = true := by
  cases tr with
  | nil => simp [beginsWith] at h
  | cons e rest =>
    simp only [beginsWith, Bool.and_eq_true, List.cons_append] at h ⊢
    refine ⟨h.1, List.isPrefixOf_iff_prefix.mpr ?_⟩
    rw [← List.cons_append, pinEvents_append]
    exact (List.isPrefixOf_iff_prefix.mp h.2).trans (List.prefix_append _ _)

/-- When a trace goes on, its last occurrence stays or a later one takes its place. -/
theorem fromLast_append {pat a w : List Event} (b : List Event) (h : fromLast pat a = some w) :
    ∃ u, fromLast pat (a ++ b) = some u ∧ ∃ c, w ++ b = c ++ u := by
  induction a with
  | nil => cases h
  | cons e a ih =>
    simp only [fromLast] at h
    simp only [List.cons_append, fromLast]
    split at h
    · rename_i v hv
      cases h
      obtain ⟨u, hu, hc⟩ := ih hv
      exact ⟨u, by rw [hu], hc⟩
    · split at h
      · rename_i hb
        cases h
        have hb' := beginsWith_append b hb
        rw [List.cons_append] at hb'
        cases hab : fromLast pat (a ++ b) with
        | some u =>
          obtain ⟨⟨c, hc⟩, -⟩ := fromLast_some hab
          exact ⟨u, rfl, e :: c, by simp [hc]⟩
        | none => exact ⟨e :: (a ++ b), by simp [hb'], [], rfl⟩
      · cases h

/-- A trace that is one whole occurrence, its first event a pin event, is its own last occurrence. -/
theorem fromLast_whole {pat rest : List Event} {e : Event} (he : isPinEvent e = true)
    (h : pinEvents (e :: rest) = pat) : fromLast pat (e :: rest) = some (e :: rest) := by
  have hr : fromLast pat rest = none :=
    fromLast_short (by rw [← h]; simp [pinEvents, he])
  have hb : beginsWith pat (e :: rest) = true := by
    simp [beginsWith, he, h]
  simp [fromLast, hr, hb]

/-! ### pairingUnknown -/

/-- The pairing is known exactly where a RESET has completed, no SET failed since, and no termination fell inside a
WRITE (R205). -/
theorem pairingUnknown_eq_false {s : State} :
    s.pairingUnknown = false ↔
      ∃ w, s.sinceReset = some w ∧ hasTransientIo w = false ∧ (s.cut = true → endsMidWrite s.pins w = false) := by
  unfold State.pairingUnknown
  cases s.sinceReset with
  | none => simp
  | some w => cases s.cut <;> simp

/-- A failed SET since the last completed RESET leaves the pairing unknown (R205). -/
theorem pairingUnknown_of_failed {s : State} {w : List Event} (h : s.sinceReset = some w)
    (hw : hasTransientIo w = true) : s.pairingUnknown = true := by
  unfold State.pairingUnknown
  simp [h, hw]

end Sys2Proof.Machine
end

