-- ==== Sys2Proof/Laws/PerInstr.lean ====
section
/-! SUPPORT. Statements about every instruction as syntax: its encoding lies in its row of spec/opcode_table.json. -/

namespace Sys2Proof.Laws

/-- An encoded instruction as a number, with bit 0 the least significant. -/
def encodedBits : Encoded → Nat
  | .cw9 w => w.toNat
  | .lcd8 b => b.toNat

/-- The row of the opcode table an instruction stands for: its mask and its match. -/
def tableRow : Instr → Nat × Nat
  | .reset => (0x1ff, 0x100)
  | .clear => (0x1ff, 0x101)
  | .bksp => (0x1ff, 0x102)
  | .nl => (0x1ff, 0x103)
  | .cr => (0x1ff, 0x104)
  | .home => (0x1ff, 0x105)
  | .tab => (0x1ff, 0x106)
  | .flash => (0x1ff, 0x107)
  | .char _ => (0x100, 0x000)
  | .unk _ => (0x100, 0x100)
  | .clearDisplay => (0xff, 0x01)
  | .returnHome => (0xff, 0x02)
  | .entryModeInc => (0xff, 0x06)
  | .displayOff => (0xff, 0x08)
  | .displayOn _ _ => (0xfc, 0x0c)
  | .cursorLeft => (0xff, 0x10)
  | .functionSet _ _ => (0xf3, 0x20)
  | .setDdram _ => (0x80, 0x80)

/-- The encoding of the instruction matches its row. -/
def TableRow.Statement (i : Instr) : Prop :=
  i.wellFormed = true → encodedBits (encode i) &&& (tableRow i).1 = (tableRow i).2

theorem TableRow.reset : TableRow.Statement .reset := fun _ => by decide
theorem TableRow.clear : TableRow.Statement .clear := fun _ => by decide
theorem TableRow.bksp : TableRow.Statement .bksp := fun _ => by decide
theorem TableRow.nl : TableRow.Statement .nl := fun _ => by decide
theorem TableRow.cr : TableRow.Statement .cr := fun _ => by decide
theorem TableRow.home : TableRow.Statement .home := fun _ => by decide
theorem TableRow.tab : TableRow.Statement .tab := fun _ => by decide
theorem TableRow.flash : TableRow.Statement .flash := fun _ => by decide
theorem TableRow.char (c : Byte) : TableRow.Statement (.char c) := fun _ => by
  revert c; decide
theorem TableRow.unk (p : Byte) : TableRow.Statement (.unk p) := fun _ => by
  revert p; decide
theorem TableRow.clearDisplay : TableRow.Statement .clearDisplay := fun _ => by decide
theorem TableRow.returnHome : TableRow.Statement .returnHome := fun _ => by decide
theorem TableRow.entryModeInc : TableRow.Statement .entryModeInc := fun _ => by decide
theorem TableRow.displayOff : TableRow.Statement .displayOff := fun _ => by decide
theorem TableRow.displayOn (c b : Bool) : TableRow.Statement (.displayOn c b) := fun _ => by
  revert c b; decide
theorem TableRow.cursorLeft : TableRow.Statement .cursorLeft := fun _ => by decide
theorem TableRow.functionSet (n f : Bool) : TableRow.Statement (.functionSet n f) := fun _ => by
  revert n f; decide
theorem TableRow.setDdram (a : BitVec 7) : TableRow.Statement (.setDdram a) := fun _ => by
  revert a; decide

end Sys2Proof.Laws
end

