-- ==== Sys2Proof/Laws/Step.lean ====
section
/-! SUPPORT. What a step can do, said once: the inversion lemma every invariant is derived from. -/

namespace Sys2Proof.Machine

/-- What INITIALIZE can do when it answers a next state (R150). -/
theorem acceptStart_cases {dev : Device} {cfg : DisplayConfig} {pins : PinMap} {s t : State}
    (h : acceptStart dev cfg pins s = .next t) :
    s.mode = .uninit ∧ configValid s.par cfg = true ∧ pinMapValid s.par pins = true
      ∧ t = { s with cfg := cfg, pins := pins, mode := .init, seq := startMicros s.par dev cfg pins,
                     curNext := cursorHome } := by
  unfold acceptStart at h
  split at h
  · cases h
  · rename_i hm
    split at h
    · cases h
    · rename_i hc
      split at h
      · cases h
      · rename_i hp
        cases h
        simp only [ne_eq, Decidable.not_not] at hm
        simp only [Bool.not_eq_true', Bool.not_eq_false] at hc hp
        exact ⟨hm, hc, hp, rfl⟩

/-- What SHUTDOWN can do when it answers a next state (R152). -/
theorem acceptShutdown_cases {s t : State} (h : acceptShutdown s = .next t) :
    s.mode = .idle ∧ t = { performRelease s with mode := .off, seq := [] } := by
  unfold acceptShutdown at h
  split at h
  · cases h
  · rename_i hm
    cases h
    exact ⟨by simpa using hm, rfl⟩

/-- What the block itself can do in one step. -/
theorem advance_cases {s t : State} (h : advance s = .next t) :
    ((s.mode = .init ∨ s.mode = .busy) ∧ t = runSequencer s)
      ∨ ((s.mode = .uninit ∨ s.mode = .idle) ∧ s.offers = [] ∧ t = s)
      ∨ (∃ op rest, s.offers = op :: rest ∧ s.mode ≠ .init ∧ s.mode ≠ .busy
          ∧ acceptOffer op { s with offers := rest } = .next t) := by
  have poll : s.mode ≠ .init → s.mode ≠ .busy → pollHost s = .next t →
      ((s.mode = .init ∨ s.mode = .busy) ∧ t = runSequencer s)
      ∨ ((s.mode = .uninit ∨ s.mode = .idle) ∧ s.offers = [] ∧ t = s)
      ∨ (∃ op rest, s.offers = op :: rest ∧ s.mode ≠ .init ∧ s.mode ≠ .busy
          ∧ acceptOffer op { s with offers := rest } = .next t) := by
    intro h1 h2 hp
    unfold pollHost at hp
    split at hp
    · rename_i op rest ho
      exact .inr (.inr ⟨op, rest, ho, h1, h2, hp⟩)
    · rename_i ho
      right; left
      split at hp <;> first | contradiction | (cases hp; simp [*])
  unfold advance at h
  cases hm : s.mode <;> simp only [hm] at h
  · exact hm ▸ poll (by simp [hm]) (by simp [hm]) h
  · cases h; simp
  · exact hm ▸ poll (by simp [hm]) (by simp [hm]) h
  · cases h; simp
  · exact hm ▸ poll (by simp [hm]) (by simp [hm]) h
  · exact hm ▸ poll (by simp [hm]) (by simp [hm]) h

/-- What a step can do when it answers a next state: the host's termination, or the block's own step, with one step
less to go before a termination that is set (R153). -/
theorem step_cases {s t : State} (h : step s = .next t) :
    s.cut = false ∧
      ((s.termIn = some 0 ∧ t = terminate s)
        ∨ (∃ n, s.termIn = some (n + 1) ∧ advance { s with termIn := some n } = .next t)
        ∨ (s.termIn = none ∧ advance s = .next t)) := by
  unfold step stepBlock at h
  split at h
  · cases h
  · rename_i hc
    refine ⟨by simpa using hc, ?_⟩
    split at h
    · rename_i ht
      cases h
      exact .inl ⟨ht, rfl⟩
    · rename_i n ht
      exact .inr (.inl ⟨n, ht, h⟩)
    · rename_i ht
      exact .inr (.inr ⟨ht, h⟩)

/-- The step of an undisturbed block is its own step. -/
theorem step_undisturbed {s : State} (h : Undisturbed s) : step s = advance s := by
  unfold step stepBlock
  simp [h.1, h.2]

/-- The step of an undisturbed block whose sequencer runs. -/
theorem step_running {s : State} (h : Undisturbed s) (hm : s.mode = .init ∨ s.mode = .busy) :
    step s = .next (runSequencer s) := by
  rw [step_undisturbed h]
  unfold advance
  rcases hm with hm | hm <;> simp [hm]

/-! ### Several steps -/

@[simp] theorem runSteps_zero (s : State) : runSteps 0 s = .next s := rfl

/-- A run goes on from the next state. -/
theorem runSteps_succ {s t : State} (k : Nat) (h : step s = .next t) : runSteps (k + 1) s = runSteps k t := by
  simp only [runSteps, h]

/-- A run of `j + k` steps is a run of `k` steps from where `j` steps lead. -/
theorem runSteps_add {s t : State} (j k : Nat) (h : runSteps j s = .next t) :
    runSteps (j + k) s = runSteps k t := by
  induction j generalizing s with
  | zero => cases h; rw [Nat.zero_add]
  | succ j ih =>
    rw [Nat.succ_add]
    cases hs : step s with
    | next u =>
      rw [runSteps_succ _ hs] at h ⊢
      exact ih h
    | fault r => simp only [runSteps, hs] at h; cases h
    | refused r => simp only [runSteps, hs] at h; cases h

end Sys2Proof.Machine
end

