-- ==== Sys2Proof/Tests/Slice0.lean ====
section
/-! SUPPORT. The model's own tests: the well-formedness smoke test, words written out from the spec's encodings, one
step of each instruction against 95_test_vectors.md, and a witness for the hypotheses of each statement. -/

namespace Sys2Proof.Tests

open Sys2Proof Sys2Proof.Machine

/-! ### States the tests share -/

/-- The block in IDLE at a cursor, on the 2×16 configuration and the pin map PM-A of the test vectors. -/
def idleAt (row col : Nat) : State :=
  { State.reset with mode := .idle, cfg := benchConfig, pins := benchPins, cur := ⟨row, col⟩, held := true }

/-- The same block running a list. -/
def busyWith (q : List Micro) : State := { idleAt 0 0 with mode := .busy, seq := q }

/-- The block in INIT running a list. -/
def initWith (held : Bool) (q : List Micro) : State := { idleAt 0 0 with mode := .init, seq := q, held := held }

/-- The block in FATAL after a refused CFG of line 4. -/
def fatalState : State :=
  { idleAt 0 0 with mode := .fatal, held := false, fatalInfo := some (.configError 4), trace := [.release] }

/-- The powered block with INITIALIZE offered. -/
def startOffered (cfg : DisplayConfig) (pins : PinMap) : State :=
  { State.reset with offers := [.start 7 cfg pins] }

/-- PM-B of the test vectors: R/W and BL unbound. -/
def pinsB : PinMap := { regSel := some 10, readWrite := none, enable := some 11, backlight := none, dat0 := some 20 }

/-- A field of the next state, where there is one. -/
def after {α : Type} (r : Result) (f : State → α) : Option α :=
  match r with
  | .next t => some (f t)
  | .fault _ => none
  | .refused _ => none

/-- The refusal, where there is one. -/
def refusal (r : Result) : Option Refusal :=
  match r with
  | .next _ => none
  | .fault _ => none
  | .refused x => some x

/-! ### Well-formedness -/

theorem test_unk_with_a_named_code_is_ill_formed : (Instr.unk 0x07#8).wellFormed = false := by decide

theorem test_unk_with_code_8_is_well_formed : (Instr.unk 0x08#8).wellFormed = true := by decide

/-! ### Words written out from the spec's encodings (30_encoding.md R72, R73, R80 to R83) -/

theorem test_word_reset : decode (.cw9 0b100000000#9) = .ok .reset := by decide
theorem test_word_clear : decode (.cw9 0b100000001#9) = .ok .clear := by decide
theorem test_word_bksp : decode (.cw9 0b100000010#9) = .ok .bksp := by decide
theorem test_word_nl : decode (.cw9 0b100000011#9) = .ok .nl := by decide
theorem test_word_cr : decode (.cw9 0b100000100#9) = .ok .cr := by decide
theorem test_word_home : decode (.cw9 0b100000101#9) = .ok .home := by decide
theorem test_word_tab : decode (.cw9 0b100000110#9) = .ok .tab := by decide
theorem test_word_flash : decode (.cw9 0b100000111#9) = .ok .flash := by decide
theorem test_word_char : decode (.cw9 0b001000001#9) = .ok (.char 0x41#8) := by decide
theorem test_word_unk : decode (.cw9 0b101000001#9) = .ok (.unk 0x41#8) := by decide
theorem test_byte_clear_display : decode (.lcd8 0b00000001#8) = .ok .clearDisplay := by decide
theorem test_byte_return_home : decode (.lcd8 0b00000010#8) = .ok .returnHome := by decide
theorem test_byte_entry_mode_inc : decode (.lcd8 0b00000110#8) = .ok .entryModeInc := by decide
theorem test_byte_display_off : decode (.lcd8 0b00001000#8) = .ok .displayOff := by decide
theorem test_byte_display_on : decode (.lcd8 0b00001101#8) = .ok (.displayOn false true) := by decide
theorem test_byte_cursor_left : decode (.lcd8 0b00010000#8) = .ok .cursorLeft := by decide
theorem test_byte_function_set : decode (.lcd8 0b00101000#8) = .ok (.functionSet true false) := by decide
theorem test_byte_set_ddram : decode (.lcd8 0b11000101#8) = .ok (.setDdram 0b1000101#7) := by decide

/-- An 8-bit function set is never emitted (R86). -/
theorem test_byte_8bit_function_set_is_rejected : decode (.lcd8 0x38#8) = .error (.neverEmitted 0x38#8) := by decide

/-- Bits above a command word are no command word. -/
theorem test_word_too_wide : decodeTableWord 16 0x200 = none := by decide

/-! ### One step of each instruction (95_test_vectors.md V1, V2) -/

/-- V2.2. -/
theorem test_reset_home : after (exec .reset (idleAt 1 9)) (fun t => (t.mode, t.curNext)) = some (.busy, ⟨0, 0⟩) := by
  decide

/-- V2.2: the first byte is 0x28, then T_FS. -/
theorem test_reset_first_bytes :
    after (exec .reset (idleAt 1 9)) (fun t => t.seq.take 21)
      = some (writeMicros specParams benchPins false 0x28#8 ++ [.wait 10000]) := by decide

/-- V2.3. -/
theorem test_clear :
    after (exec .clear (idleAt 1 16)) (fun t => (t.seq, t.curNext))
      = some (writeMicros specParams benchPins false 0x01#8 ++ [.wait 2000], ⟨0, 0⟩) := by decide

/-- V2.4, from the parked column. -/
theorem test_bksp_unparks :
    after (exec .bksp (idleAt 1 16)) (fun t => (t.seq, t.curNext))
      = some (writeMicros specParams benchPins false 0x10#8, ⟨1, 15⟩) := by decide

/-- V2.4, at column 0: the FLASH sequence, no move. -/
theorem test_bksp_flashes :
    after (exec .bksp (idleAt 1 0)) (fun t => (t.seq.take 21, t.curNext))
      = some (writeMicros specParams benchPins false 0x08#8 ++ [.wait 200000], ⟨1, 0⟩) := by decide

/-- V2.5, L1.6. -/
theorem test_nl_next_row :
    after (exec .nl (idleAt 0 7)) (fun t => (t.seq, t.curNext))
      = some (writeMicros specParams benchPins false 0xC0#8, ⟨1, 0⟩) := by decide

/-- V2.5, L1.7. -/
theorem test_nl_parks :
    after (exec .nl (idleAt 1 3)) (fun t => (t.seq, t.curNext))
      = some (writeMicros specParams benchPins false 0xD0#8, ⟨1, 16⟩) := by decide

/-- V2.6, 4×20 at (3, 9). -/
theorem test_cr_row_3 :
    after (exec .cr { idleAt 3 9 with cfg := { benchConfig with lines := 4, cols := 20 } })
        (fun t => (t.seq, t.curNext))
      = some (writeMicros specParams benchPins false 0xD4#8, ⟨3, 0⟩) := by decide

/-- V2.7. -/
theorem test_home :
    after (exec .home (idleAt 1 16)) (fun t => (t.seq, t.curNext))
      = some (writeMicros specParams benchPins false 0x02#8 ++ [.wait 2000], ⟨0, 0⟩) := by decide

/-- V2.8, 16 columns from column 15. -/
theorem test_tab_parks :
    after (exec .tab (idleAt 0 15)) (fun t => (t.seq, t.curNext))
      = some (writeMicros specParams benchPins true 0x20#8, ⟨0, 16⟩) := by decide

/-- V2.8, while parked: completes with no event. -/
theorem test_tab_parked :
    after (exec .tab (idleAt 0 16)) (fun t => (t.mode, t.seq, t.cur, t.trace)) = some (.idle, [], ⟨0, 16⟩, []) := by
  decide

/-- V2.9, with cursor and blink on: DISPLAY_ON is 0x0F. -/
theorem test_flash_display_on :
    after (exec .flash { idleAt 0 3 with cfg := { benchConfig with cursorEn := true, blinkEn := true } })
        (fun t => ((t.seq.drop 21).take 20, t.curNext))
      = some (writeMicros specParams benchPins false 0x0F#8, ⟨0, 3⟩) := by decide

/-- V2.10. -/
theorem test_char_writes :
    after (exec (.char 0x7A#8) (idleAt 0 15)) (fun t => (t.seq, t.curNext))
      = some (writeMicros specParams benchPins true 0x7A#8, ⟨0, 16⟩) := by decide

/-- V2.10, V4.6: dropped at the edge. -/
theorem test_char_dropped :
    after (exec (.char 0x41#8) (idleAt 0 16)) (fun t => (t.mode, t.seq, t.cur, t.trace))
      = some (.idle, [], ⟨0, 16⟩, []) := by decide

/-- V2.11. -/
theorem test_unk_warns :
    after (step (busyWith [.warn (.unknownCommand 0x41#8)])) (fun t => (t.mode, t.trace, t.out))
      = some (.idle, [.warn (.unknownCommand 0x41#8)], []) := by decide

/-- V1.1: WRITE(1, 0x41) on PM-A, event by event. -/
theorem test_write_events :
    writeMicros specParams benchPins true 0x41#8
      = [.setPin 3 false, .setPin 2 true, .setPin 9 false, .setPin 8 true, .setPin 7 false, .setPin 6 false,
          .wait 20, .setPin 4 true, .wait 40, .setPin 4 false, .wait 20,
          .setPin 9 false, .setPin 8 false, .setPin 7 false, .setPin 6 true,
          .wait 20, .setPin 4 true, .wait 40, .setPin 4 false, .wait 20] := by decide

/-- V1.2: on PM-B the R/W step is left out. -/
theorem test_write_events_without_rw :
    (writeMicros specParams pinsB false 0x01#8).take 5
      = [.setPin 10 false, .setPin 23 false, .setPin 22 false, .setPin 21 false, .setPin 20 false] := by decide

theorem test_issue_clear_display :
    after (exec .clearDisplay (busyWith [])) (·.seq) = some (writeMicros specParams benchPins false 0x01#8) := by decide
theorem test_issue_return_home :
    after (exec .returnHome (busyWith [.wait 1])) (·.seq)
      = some (.wait 1 :: writeMicros specParams benchPins false 0x02#8) := by decide
theorem test_issue_entry_mode_inc :
    after (exec .entryModeInc (busyWith [])) (·.seq) = some (writeMicros specParams benchPins false 0x06#8) := by decide
theorem test_issue_display_off :
    after (exec .displayOff (busyWith [])) (·.seq) = some (writeMicros specParams benchPins false 0x08#8) := by decide
theorem test_issue_display_on :
    after (exec (.displayOn true false) (busyWith [])) (·.seq)
      = some (writeMicros specParams benchPins false 0x0E#8) := by decide
theorem test_issue_cursor_left :
    after (exec .cursorLeft (busyWith [])) (·.seq) = some (writeMicros specParams benchPins false 0x10#8) := by decide
theorem test_issue_function_set :
    after (exec (.functionSet false true) (initWith true [])) (·.seq)
      = some (writeMicros specParams benchPins false 0x24#8) := by decide
theorem test_issue_set_ddram :
    after (exec (.setDdram 0x68#7) (busyWith [])) (·.seq)
      = some (writeMicros specParams benchPins false 0xE8#8) := by decide
theorem test_issue_refused_at_rest : refusal (exec .clearDisplay (idleAt 0 0)) = some (.notEmitting .idle) := by decide

/-! ### Warnings, fatal errors, the lifecycle (V1.5, V3, V4) -/

/-- V1.5: a failed SET. -/
theorem test_failed_set :
    after (step { busyWith [.setPin 2 true, .wait 1] with answers := [.fail], out := [(2, false), (3, false)] })
        (fun t => (t.trace, t.out, t.seq, t.mode))
      = some ([.setPin 2 true, .warn (.transientIo 2 true)], [(3, false)], [.wait 1], .busy) := by decide

/-- V3.1: a failing OPEN. -/
theorem test_open_fails :
    after (step { initWith false [.openDev 7, .cfgPin 2] with answers := [.fail] })
        (fun t => (t.trace, t.mode, t.held, t.seq))
      = some ([.openDev 7, .fatal (.openError 7)], .fatal, false, []) := by decide

/-- V3.2: a failing CFG. -/
theorem test_cfg_fails :
    after (step { initWith true [.cfgPin 4, .setPin 4 false] with answers := [.fail] })
        (fun t => (t.trace, t.mode, t.held, t.seq))
      = some ([.cfgPin 4, .fatal (.configError 4), .release], .fatal, false, []) := by decide

/-- V4.1: how the list of INITIALIZE begins. -/
theorem test_start_list :
    after (step (startOffered { benchConfig with blDefaultOn := true } benchPins)) (fun t => (t.mode, t.seq.take 18))
      = some (.init, [.openDev 7, .cfgPin 2, .setPin 2 false, .cfgPin 3, .setPin 3 false, .cfgPin 4, .setPin 4 false,
          .cfgPin 5, .setPin 5 false, .cfgPin 6, .setPin 6 false, .cfgPin 7, .setPin 7 false, .cfgPin 8,
          .setPin 8 false, .cfgPin 9, .setPin 9 false, .setPin 5 true]) := by decide

/-- V4.2: on PM-B the unbound R/W and BL are skipped. -/
theorem test_start_list_unbound :
    after (step (startOffered { benchConfig with blDefaultOn := true } pinsB)) (fun t => t.seq.take 6)
      = some [.openDev 7, .cfgPin 10, .setPin 10 false, .cfgPin 11, .setPin 11 false, .cfgPin 20] := by decide

/-- V4.4: SHUTDOWN. -/
theorem test_shutdown :
    after (step { idleAt 0 0 with offers := [.shutdown] }) (fun t => (t.trace, t.held, t.mode))
      = some ([.release], false, .off) := by decide

/-- V4.5: LINES = 3. -/
theorem test_three_lines_refused :
    refusal (step (startOffered { benchConfig with lines := 3 } benchPins)) = some .badConfig := by decide

/-- V4.5: 4×21. -/
theorem test_capacity_refused :
    refusal (step (startOffered { benchConfig with lines := 4, cols := 21 } benchPins)) = some .badConfig := by decide

/-- V4.5: COLS = 0. -/
theorem test_no_columns_refused :
    refusal (step (startOffered { benchConfig with cols := 0 } benchPins)) = some .badConfig := by decide

/-- R8: a width other than 4. -/
theorem test_width_refused :
    refusal (step (startOffered { benchConfig with width := 0 } benchPins)) = some .badConfig := by decide

/-- V4.5: RS unbound. -/
theorem test_rs_unbound_refused :
    refusal (step (startOffered benchConfig { benchPins with regSel := none })) = some .badPinMap := by decide

/-- V4.5: DAT0 and RW on one line. -/
theorem test_shared_line_refused :
    refusal (step (startOffered benchConfig { benchPins with dat0 := some 3 })) = some .badPinMap := by decide

/-- R51: a line beyond a fixed PIN_W, through DAT3. -/
theorem test_line_width_refused :
    refusal (step { startOffered benchConfig benchPins with par := { specParams with pinW := some 3 } })
      = some .badPinMap := by decide

/-- V4.5: a word offered in UNINIT. -/
theorem test_word_in_uninit_refused :
    refusal (step { State.reset with offers := [.command 0x041#9] }) = some (.notReady .uninit) := by decide

/-- R109: a WRITE of 0x41 with one failed SET is Corrupt, and the next one latches. -/
theorem test_latched_corrupt :
    latched benchPins
        ([.setPin 3 false, .setPin 2 true, .warn (.transientIo 2 true), .setPin 9 false, .setPin 8 true, .setPin 7 false,
            .setPin 6 false, .setPin 4 true, .setPin 4 false, .setPin 9 false, .setPin 8 false, .setPin 7 false,
            .setPin 6 true, .setPin 4 true, .setPin 4 false]
          ++ [.setPin 3 false, .setPin 2 true, .setPin 9 false, .setPin 8 true, .setPin 7 false, .setPin 6 false,
            .setPin 4 true, .setPin 4 false, .setPin 9 false, .setPin 8 false, .setPin 7 true, .setPin 6 false,
            .setPin 4 true, .setPin 4 false])
      = [.corrupt, .pair true 0x42#8] := by decide

/-- The trace of a RESET every SET of which was acknowledged. -/
def resetTrace : List Event := resetPinEvents specParams benchConfig benchPins

/-- R205: a completed RESET restores the pairing after a failed SET, and a SET that fails after it loses it again. -/
theorem test_reset_restores_pairing :
    State.pairingUnknown { idleAt 0 0 with trace := [.setPin 4 true, .warn (.transientIo 4 true)] ++ resetTrace } = false
      ∧ State.pairingUnknown
          { idleAt 0 0 with trace := resetTrace ++ [.setPin 4 true, .warn (.transientIo 4 true)] } = true := by
  decide +kernel

/-- R205: a termination between the two strobes of a WRITE leaves the pairing unknown, one after both does not. -/
theorem test_cut_between_strobes :
    State.pairingUnknown { idleAt 0 0 with
        trace := resetTrace ++ [.setPin 3 false, .setPin 2 true, .setPin 4 true, .setPin 4 false], cut := true } = true
      ∧ State.pairingUnknown { idleAt 0 0 with
          trace := resetTrace ++ [.setPin 3 false, .setPin 2 true, .setPin 4 true, .setPin 4 false, .setPin 4 true,
            .setPin 4 false], cut := true } = false := by
  decide +kernel

/-- R157: in IDLE a pending SHUTDOWN is no further word, a pending CHAR is one; a cut run is cut (log 22). -/
theorem test_run_standing :
    State.runStatus { idleAt 0 0 with offers := [.shutdown] } = .complete
      ∧ State.runStatus { idleAt 0 0 with offers := [.shutdown, .command 0x041#9] } = .running
      ∧ State.runStatus { fatalState with cut := true } = .cut := by decide

/-- R180: 20 microseconds at 1.5 MHz take 30 cycles, and a part of a cycle counts whole. -/
theorem test_wait_cycles : minWaitCycles 1500000 20 = 30 ∧ minWaitCycles 1 20 = 1 := by decide

/-- R81: with the cursor alone on DISPLAY_ON is 0x0E, with the blink alone 0x0D; R82: one line with the large font gives
0x24, two lines with the small one 0x28. -/
theorem test_configured_bytes :
    configDisplayOn specParams { benchConfig with cursorEn := true } = 0x0E#8
      ∧ configDisplayOn specParams { benchConfig with blinkEn := true } = 0x0D#8
      ∧ configFunctionSet specParams { benchConfig with lines := 1, largeFont := true } = 0x24#8
      ∧ configFunctionSet specParams benchConfig = 0x28#8 := by decide

/-- R170: the four codes. -/
theorem test_error_codes :
    fatalCode (.openError 7) = 1 ∧ fatalCode (.configError 4) = 2 ∧ warnCode (.transientIo 4 true) = 3
      ∧ warnCode (.unknownCommand 0x41#8) = 4 := by decide

/-! ### Witnesses: the hypotheses of each statement are met together -/

/-- The IDLE state meets the invariant. -/
theorem idle_inv : Inv (idleAt 1 16) := by
  constructor <;> simp [idleAt, State.reset, linesCanonical, releasesDue]
  · decide
  · decide

/-- A BUSY state meets the invariant. -/
theorem busy_inv : Inv (busyWith [.wait 20]) := by
  constructor <;> simp [busyWith, idleAt, State.reset, linesCanonical, releasesDue, microLine, isQuiet]
  · decide
  · decide
  · decide

theorem witness_DecodeOfEncodeIsTheInstruction : (Instr.unk 0x08#8).wellFormed = true := by decide

theorem witness_ControllerBytesAreReadExactly :
    decodeController 0xFF#8 = .ok (.setDdram 0x7F#7) ∧ decodeController 0x7F#8 = .error (.neverEmitted 0x7F#8) := by
  decide

theorem witness_StepRunsTheOfferedWord :
    ∃ s : State, s.cut = false ∧ s.termIn = some 1 ∧ s.termIn ≠ some 0 ∧ s.mode = .idle
      ∧ s.offers = .command 0x1FF#9 :: [] :=
  ⟨{ idleAt 0 0 with termIn := some 1, offers := [.command 0x1FF#9] }, rfl, rfl, by decide, rfl, rfl⟩

theorem witness_LaidInstructionRunsNext : decodeController 0x80#8 = .ok (.setDdram 0x00#7) := by decide

theorem witness_SequencerPerformsTheHead :
    Undisturbed (busyWith [.wait 20]) ∧ (busyWith [.wait 20]).mode = .busy
      ∧ (busyWith [.wait 20]).seq = .wait 20 :: []
      ∧ Undisturbed (initWith true [.cfgPin 2, .wait 1]) ∧ (initWith true [.cfgPin 2, .wait 1]).mode = .init :=
  ⟨⟨rfl, rfl⟩, rfl, rfl, ⟨rfl, rfl⟩, rfl⟩

theorem witness_CommandsRunInIdleOnly :
    (∃ t, step (busyWith [.wait 20]) = .next t) ∧ Instr.reset.isCommand = true ∧ fatalState.mode ≠ .idle :=
  ⟨⟨_, rfl⟩, rfl, by decide⟩

theorem witness_ResetIsAccepted :
    (idleAt 0 0).mode = .idle
      ∧ (idleAt 0 0).par.lcdOp.functionSetSeq = [.configured, .configured, .configured]
      ∧ (idleAt 0 0).par.lcdOp = specLcdOp := by decide

/-- CLEAR, CARRIAGE_RETURN, HOME and FLASH ask for IDLE alone, FLASH's bytes for the default table as RESET's. -/
theorem witness_ClearReturnHomeFlashAreAccepted : (idleAt 1 16).mode = .idle := rfl

theorem witness_BackspaceIsAccepted :
    (idleAt 0 1).mode = .idle ∧ 0 < (idleAt 0 1).cur.col ∧ (idleAt 0 0).cur.col = 0 := by decide

theorem witness_NewlineIsAccepted :
    (idleAt 0 3).mode = .idle ∧ (idleAt 0 3).cur.row < (idleAt 0 3).cfg.lines - 1
      ∧ ¬ (idleAt 1 3).cur.row < (idleAt 1 3).cfg.lines - 1 := by decide

theorem witness_TabIsAccepted :
    (idleAt 0 15).mode = .idle
      ∧ 1 = min (((idleAt 0 15).cur.col / (idleAt 0 15).par.tabStop + 1) * (idleAt 0 15).par.tabStop)
              (idleAt 0 15).cfg.cols - (idleAt 0 15).cur.col
      ∧ 0 = min (((idleAt 0 16).cur.col / (idleAt 0 16).par.tabStop + 1) * (idleAt 0 16).par.tabStop)
              (idleAt 0 16).cfg.cols - (idleAt 0 16).cur.col := by decide

theorem witness_CharacterIsAccepted :
    (idleAt 0 15).mode = .idle ∧ (idleAt 0 15).cur.col < (idleAt 0 15).cfg.cols
      ∧ ¬ (idleAt 0 16).cur.col < (idleAt 0 16).cfg.cols := by decide

theorem witness_UnknownCodeOnlyWarns :
    8 ≤ (0x08#8 : Byte).toNat ∧ 8 ≤ (0xFF#8 : Byte).toNat ∧ Undisturbed (idleAt 0 0) ∧ (idleAt 0 0).mode = .idle :=
  ⟨by decide, by decide, ⟨rfl, rfl⟩, rfl⟩

theorem witness_AcceptanceFrame :
    Instr.nl.isCommand = true ∧ (∃ t, exec .nl (idleAt 0 3) = .next t)
      ∧ (∃ t, exec (.char 0x41#8) (idleAt 0 16) = .next t) := ⟨rfl, ⟨_, rfl⟩, ⟨_, rfl⟩⟩

theorem witness_IssuedBytesJoinTheSequence :
    (initWith true [.wait 1]).mode = .init ∧ (busyWith [.wait 1]).mode = .busy := ⟨rfl, rfl⟩

theorem witness_IssuedByteIsItsTableByte :
    (busyWith []).mode = .busy ∧ (busyWith []).par.lcdOp = specLcdOp ∧ encode (.setDdram 0x7F#7) = .lcd8 0xFF#8 := by
  decide

theorem witness_NoByteIsIssuedAtRest :
    Instr.clearDisplay.isCommand = false ∧ (idleAt 0 0).mode ≠ .init ∧ (idleAt 0 0).mode ≠ .busy := by decide

theorem witness_OnlyTabulatedBytesAreWritten :
    Item.write false 0x10#8 ∈ (expand specParams benchConfig ⟨0, 5⟩ .bksp).items := by decide

theorem witness_OnlyCharAndTabWriteData :
    Item.write true 0x41#8 ∈ (expand specParams benchConfig ⟨0, 15⟩ (.char 0x41#8)).items
      ∧ Item.write true 0x20#8 ∈ (expand specParams benchConfig ⟨0, 15⟩ .tab).items ∧ 15 < benchConfig.cols := by
  decide

theorem witness_AddressIsComputedAndWritten :
    Instr.nl ∈ [Instr.nl, Instr.cr] ∧ Instr.cr.isCommand = true
      ∧ Item.write false 0xC0#8 ∈ (expand specParams benchConfig ⟨1, 16⟩ .cr).items
      ∧ (0xC0#8 : Byte).getLsbD 7 = true := by decide

/-- The largest address, 4×20 parked on row 3. -/
theorem witness_AddressByteHoldsTheAddress :
    configValid specParams { benchConfig with lines := 4, cols := 20 } = true
      ∧ cursorInRange { benchConfig with lines := 4, cols := 20 } ⟨3, 20⟩ = true
      ∧ calcAddr specParams { benchConfig with lines := 4, cols := 20 } ⟨3, 20⟩ = 0x68 := by decide

theorem witness_RowsAreLaidOut :
    configValid specParams { benchConfig with lines := 4, cols := 20 } = true ∧ 19 < 20
      ∧ configValid specParams { benchConfig with lines := 1, cols := 80 } = true ∧ 79 < 80
      ∧ configValid specParams { benchConfig with lines := 2, cols := 40 } = true := by decide

theorem witness_PositionsHaveDistinctAddresses :
    configValid specParams { benchConfig with lines := 4, cols := 20 } = true
      ∧ calcAddr specParams { benchConfig with lines := 4, cols := 20 } ⟨2, 19⟩
          = calcAddr specParams { benchConfig with lines := 4, cols := 20 } ⟨2, 19⟩ := by decide

theorem witness_CommandsKeepTheCursorInRange :
    configValid specParams benchConfig = true ∧ cursorInRange benchConfig ⟨1, 16⟩ = true := by decide

theorem witness_TabReachesTheNextStop :
    (⟨0, 16⟩ : Cursor).col ≤ benchConfig.cols ∧ (⟨0, 8⟩ : Cursor).col % 8 = 0
      ∧ (⟨0, 8⟩ : Cursor).col + 8 ≤ benchConfig.cols := by decide

theorem witness_CommandDurations :
    0 < (⟨0, 1⟩ : Cursor).col ∧ (⟨0, 0⟩ : Cursor).col = 0 ∧ (⟨0, 15⟩ : Cursor).col < benchConfig.cols
      ∧ ¬ (⟨0, 16⟩ : Cursor).col < benchConfig.cols := by decide

theorem witness_SetDrivesItsLine :
    linesCanonical [(2, true), (3, false)] ∧ (State.nextAnswer { idleAt 0 0 with answers := [.ok] }) = .ok
      ∧ (State.nextAnswer { idleAt 0 0 with answers := [.fail] }) = .fail := by decide

theorem witness_CfgAndOpenAskTheDevice :
    (State.nextAnswer { idleAt 0 0 with answers := [.ok] }) = .ok
      ∧ (State.nextAnswer { idleAt 0 0 with answers := [.fail] }) = .fail ∧ (idleAt 0 0).answers = [] :=
  ⟨rfl, rfl, rfl⟩

theorem witness_UnboundRolesAreNotDriven :
    lineOf pinsB .readWrite = none ∧ lineOf pinsB .backlight = none ∧ pinMapValid specParams pinsB = true := by decide

theorem witness_NibblesCrossUpperFirst : benchPins.dat0 = some 6 := rfl

theorem witness_WriteIsItsSixSteps :
    benchPins.regSel = some 2 ∧ benchPins.enable = some 4 ∧ benchPins.dat0 = some 6 ∧ benchPins.readWrite = some 3
      ∧ pinsB.regSel = some 10 ∧ pinsB.enable = some 11 ∧ pinsB.dat0 = some 20 ∧ pinsB.readWrite = none := by decide

theorem witness_WriteLatchesItsPairOrCorrupt :
    ∃ s : State, Undisturbed s ∧ s.mode = .busy ∧ pinMapValid s.par s.pins = true
      ∧ s.seq = writeMicros s.par s.pins true 0x41#8 ++ []
      ∧ (writeMicros s.par s.pins true 0x41#8).length = 8 + 12 ∧ 18 + 2 = (writeMicros s.par s.pins true 0x41#8).length :=
  ⟨busyWith (writeMicros specParams benchPins true 0x41#8 ++ []), ⟨rfl, rfl⟩, rfl, by decide, rfl, by decide, by decide⟩

theorem witness_CommandsLeaveTheBacklight :
    pinMapValid (idleAt 0 3).par (idleAt 0 3).pins = true ∧ (idleAt 0 3).pins.backlight = some 5
      ∧ ∃ t, exec .nl (idleAt 0 3) = .next t := ⟨by decide, rfl, ⟨_, rfl⟩⟩

theorem witness_BusyRunsToCompletion :
    Undisturbed (busyWith [.setPin 2 true, .wait 20]) ∧ (busyWith [.setPin 2 true, .wait 20]).mode = .busy
      ∧ (busyWith [.setPin 2 true, .wait 20]).seq ≠ []
      ∧ (busyWith [.setPin 2 true, .wait 20]).seq.all isQuiet = true :=
  ⟨⟨rfl, rfl⟩, rfl, by decide, by decide⟩

/-- The premises shared by OfferedCommandCompletes and CommandLatchesItsWrites. -/
theorem witness_OfferedCommandCompletes :
    ∃ s : State, Undisturbed s ∧ s.mode = .idle ∧ s.offers = .command 0x103#9 :: [.shutdown]
      ∧ pinMapValid s.par s.pins = true :=
  ⟨{ idleAt 1 3 with offers := [.command 0x103#9, .shutdown] }, ⟨rfl, rfl⟩, rfl, rfl, by decide⟩

/-- The further clauses of CommandLatchesItsWrites: a RESET is offered, and a state whose pairing is known. -/
theorem witness_CommandLatchesItsWrites :
    decodeCommand 0x100#9 = .reset ∧ State.pairingUnknown { idleAt 0 0 with trace := resetTrace } = false := by
  decide +kernel

theorem witness_AnswersNeverSteerACommand :
    Undisturbed (busyWith [.setPin 2 true]) ∧ (busyWith [.setPin 2 true]).mode = .busy
      ∧ (busyWith [.setPin 2 true]).seq.all isQuiet = true ∧ 1 ≤ (busyWith [.setPin 2 true]).seq.length :=
  ⟨⟨rfl, rfl⟩, rfl, by decide, by decide⟩

theorem witness_SetupFailureIsFatal :
    ∃ s u : State, Undisturbed s ∧ s.mode = .init ∧ s.nextAnswer = .fail ∧ s.held = false
      ∧ s.seq = .openDev 7 :: [.cfgPin 2] ∧ Undisturbed u ∧ u.mode = .init ∧ u.nextAnswer = .fail ∧ u.held = true
      ∧ u.seq = .cfgPin 4 :: [.setPin 4 false] :=
  ⟨{ initWith false [.openDev 7, .cfgPin 2] with answers := [.fail] },
    { initWith true [.cfgPin 4, .setPin 4 false] with answers := [.fail] },
    ⟨rfl, rfl⟩, rfl, rfl, rfl, rfl, ⟨rfl, rfl⟩, rfl, rfl, rfl, rfl⟩

theorem witness_FatalIsTerminal :
    fatalState.mode = .fatal
      ∧ ∃ t, step { fatalState with termIn := some 0 } = .next t := ⟨rfl, ⟨_, rfl⟩⟩

theorem witness_StartIsAccepted :
    Undisturbed (startOffered benchConfig benchPins) ∧ (startOffered benchConfig benchPins).mode = .uninit
      ∧ (startOffered benchConfig benchPins).offers = .start 7 benchConfig benchPins :: []
      ∧ configValid (startOffered benchConfig benchPins).par benchConfig = true
      ∧ pinMapValid (startOffered benchConfig benchPins).par benchPins = true :=
  ⟨⟨rfl, rfl⟩, rfl, rfl, by decide, by decide⟩

theorem witness_StartIsRefused :
    (idleAt 0 0).mode ≠ .uninit ∧ State.reset.mode = .uninit ∧ State.reset.par = specParams
      ∧ ¬ (4 * 21 ≤ 80) ∧ configValid State.reset.par benchConfig = true
      ∧ ¬ (boundLines { benchPins with dat0 := some 3 }).Nodup := by decide

theorem witness_StartSucceeds :
    ∃ s : State, Undisturbed s ∧ s.mode = .uninit ∧ s.offers = .start 7 benchConfig benchPins :: []
      ∧ configValid s.par benchConfig = true ∧ pinMapValid s.par benchPins = true
      ∧ s.par.lcdOp.clearDisplay = 0x01#8
      ∧ s.answers = List.replicate (requests (startMicros s.par 7 benchConfig benchPins)) .ok ++ [] :=
  ⟨{ startOffered benchConfig benchPins with
      answers := List.replicate (requests (startMicros specParams 7 benchConfig benchPins)) .ok ++ [] },
    ⟨rfl, rfl⟩, rfl, rfl, by decide, by decide, rfl, rfl⟩

theorem witness_ShutdownReleases :
    ∃ s : State, Undisturbed s ∧ s.mode = .idle ∧ s.offers = .shutdown :: [] ∧ fatalState.mode ≠ .idle :=
  ⟨{ idleAt 0 0 with offers := [.shutdown] }, ⟨rfl, rfl⟩, rfl, rfl, by decide⟩

theorem witness_TerminationCutsTheBlock :
    ({ busyWith [.wait 20] with termIn := some 0 } : State).cut = false
      ∧ ({ busyWith [.wait 20] with termIn := some 0 } : State).termIn = some 0
      ∧ (terminate (busyWith [.wait 20])).cut = true := ⟨rfl, rfl, rfl⟩

theorem witness_BlockWaitsForTheHost :
    Undisturbed State.reset ∧ State.reset.offers = [] ∧ State.reset.mode = .uninit ∧ Undisturbed fatalState
      ∧ fatalState.offers = [] ∧ fatalState.mode = .fatal
      ∧ ({ idleAt 0 0 with mode := .off } : State).mode = .off :=
  ⟨⟨rfl, rfl⟩, rfl, rfl, ⟨rfl, rfl⟩, rfl, rfl, rfl⟩

theorem witness_RunStandings :
    (idleAt 0 0).cut = false ∧ (busyWith [.wait 20]).mode = .busy ∧ fatalState.mode = .fatal := ⟨rfl, rfl, rfl⟩

theorem witness_ParametersHoldTheirValues : ∃ t, step (busyWith [.wait 20]) = .next t := ⟨_, rfl⟩

theorem witness_ConfigurationIsImmutable :
    (∃ t, step (busyWith [.wait 20]) = .next t) ∧ (busyWith [.wait 20]).mode ≠ .uninit := ⟨⟨_, rfl⟩, by decide⟩

theorem witness_StepKeepsTheInvariant : Inv (busyWith [.wait 20]) ∧ ∃ t, step (busyWith [.wait 20]) = .next t :=
  ⟨busy_inv, ⟨_, rfl⟩⟩

theorem witness_CursorFitsItsRegisters :
    Inv (idleAt 1 16) ∧ (idleAt 1 16).par = specParams ∧ (idleAt 1 16).mode = .idle := ⟨idle_inv, rfl, rfl⟩

end Sys2Proof.Tests
end

section
/-! The parameters are fixed (00_scope.md R10, R11, R36): no operation of the block writes `State.par`. Each lemma
follows the operation's own cases, from the sequencer up to the step. -/

namespace Sys2Proof.Machine

/-! ### The sequencer -/

@[simp] theorem perform_par (m : Micro) (s : State) : (perform m s).par = s.par := (perform_frame m s).1

@[simp] theorem finishSequence_par (s : State) : (finishSequence s).par = s.par := by
  unfold finishSequence; split <;> rfl

@[simp] theorem finishIfEmpty_par (s : State) : (finishIfEmpty s).par = s.par := by
  unfold finishIfEmpty; split <;> simp

@[simp] theorem runSequencer_par (s : State) : (runSequencer s).par = s.par := by
  unfold runSequencer; split <;> simp

/-! ### The host's operations -/

/-- Every word of the host decodes to one of the ten commands, never to an emitted byte (R74, R87). -/
theorem decodeCommand_isCommand (w : CommandWord) : (decodeCommand w).isCommand = true := by
  unfold decodeCommand
  split
  · unfold decodeControl; split <;> rfl
  · rfl

/-- Acceptance of a command changes no parameter, whether it leaves the block BUSY or completes at once. -/
theorem acceptCommand_par {s t : State} {x : Expansion} (h : acceptCommand s x = .next t) : t.par = s.par := by
  obtain ⟨-, ⟨-, rfl⟩ | ⟨-, rfl⟩⟩ := acceptCommand_cases h <;> rfl

theorem acceptOffer_par {op : HostOp} {s t : State} (h : acceptOffer op s = .next t) : t.par = s.par := by
  cases op with
  | start dev cfg pins =>
    obtain ⟨-, -, -, rfl⟩ := acceptStart_cases h
    rfl
  | command w =>
    have haccept : acceptCommand s (expand s.par s.cfg s.cur (decodeCommand w)) = .next t :=
      (exec_command (decodeCommand_isCommand w) s).symm.trans h
    exact acceptCommand_par haccept
  | shutdown =>
    obtain ⟨-, rfl⟩ := acceptShutdown_cases h
    rfl

/-! ### The step -/

theorem advance_par {s t : State} (h : advance s = .next t) : t.par = s.par := by
  obtain ⟨-, rfl⟩ | ⟨-, -, rfl⟩ | ⟨op, rest, -, -, -, hoffer⟩ := advance_cases h
  · exact runSequencer_par s
  · rfl
  · exact (acceptOffer_par hoffer :)

theorem step_par {s t : State} (h : step s = .next t) : t.par = s.par := by
  obtain ⟨-, ⟨-, rfl⟩ | ⟨n, -, hadvance⟩ | ⟨-, hadvance⟩⟩ := step_cases h
  · exact terminate_par s
  · exact (advance_par hadvance :)
  · exact advance_par hadvance

end Sys2Proof.Machine

namespace Sys2Proof.Proofs

open Sys2Proof.Machine

/-- Settles O56: the values are those `State.reset` takes from `specParams`, and `step_par` keeps them. -/
theorem parametersHoldTheirValues : Obligations.ParametersHoldTheirValues := by
  unfold Obligations.ParametersHoldTheirValues
  exact ⟨⟨rfl, rfl, rfl, rfl, rfl, rfl, rfl, rfl, rfl, rfl, rfl, rfl⟩, fun _ _ => step_par⟩

end Sys2Proof.Proofs
end

section
/-! The sequencer's step (40_transport.md R105), and a command run to completion (10_state.md R31). A step of a quiet
micro-operation is said once, `runSequencer_quiet`; the run is an induction over the list. -/

namespace Sys2Proof.Machine

/-! ### What a micro-operation does to the lifecycle -/

/-- OPEN by the device's answer: the device is held, or the OPEN was refused (R104). -/
theorem perform_openDev_cases (dev : Device) (s : State) :
    perform (.openDev dev) s = (s.emit (.openDev dev)).dropAnswer.setHeld true
      ∨ perform (.openDev dev) s = raiseFatal (.openError dev) (s.emit (.openDev dev)).dropAnswer := by
  unfold perform performOpen
  simp only [nextAnswer_emit]
  cases s.nextAnswer <;> simp

/-- CFG by the device's answer (R100). -/
theorem perform_cfgPin_cases (p : Line) (s : State) :
    perform (.cfgPin p) s = (s.emit (.cfgPin p)).dropAnswer
      ∨ perform (.cfgPin p) s = raiseFatal (.configError p) (s.emit (.cfgPin p)).dropAnswer := by
  unfold perform performCfg
  simp only [nextAnswer_emit]
  cases s.nextAnswer <;> simp

/-- A micro-operation leaves the mode and the list, or discards the list in fatal entry. -/
theorem perform_lifecycle (m : Micro) (s : State) :
    ((perform m s).mode = s.mode ∧ (perform m s).seq = s.seq)
      ∨ ((perform m s).mode = .fatal ∧ (perform m s).seq = []) := by
  have quiet : isQuiet m = true → (perform m s).mode = s.mode ∧ (perform m s).seq = s.seq := by
    intro hm
    obtain ⟨hmode, hseq, -, -⟩ := perform_quiet hm s
    exact ⟨hmode, hseq⟩
  cases m with
  | openDev dev => rcases perform_openDev_cases dev s with h | h <;> simp [h]
  | cfgPin p => rcases perform_cfgPin_cases p s with h | h <;> simp [h]
  | setPin | wait | warn => exact .inl (quiet rfl)
  | release => exact .inl ⟨rfl, rfl⟩
  | fatal f => exact .inr ⟨rfl, rfl⟩

/-! ### The end of a list -/

theorem finishIfEmpty_of_ne {s : State} (h : s.seq ≠ []) : finishIfEmpty s = s := by
  simp [finishIfEmpty, h]

theorem finishIfEmpty_fatal {s : State} (h : s.mode = .fatal) : finishIfEmpty s = s := by
  simp [finishIfEmpty, finishSequence, h]

/-- In BUSY the end of the list commits the cursor (R105). -/
theorem finishIfEmpty_busy {s : State} (hseq : s.seq = []) (hmode : s.mode = .busy) :
    finishIfEmpty s = { s with cur := s.curNext, mode := .idle } := by
  simp [finishIfEmpty, finishSequence, hseq, hmode]

/-- In INIT the end of the list puts the cursor at (0, 0) (R150). -/
theorem finishIfEmpty_init {s : State} (hseq : s.seq = []) (hmode : s.mode = .init) :
    finishIfEmpty s = { s with cur := cursorHome, mode := .idle } := by
  simp [finishIfEmpty, finishSequence, hseq, hmode]

@[simp] theorem finishSequence_cfg (s : State) : (finishSequence s).cfg = s.cfg := by
  unfold finishSequence; split <;> rfl

@[simp] theorem finishSequence_pins (s : State) : (finishSequence s).pins = s.pins := by
  unfold finishSequence; split <;> rfl

/-- The end of a list leaves the mode or makes the block IDLE. -/
theorem finishSequence_mode (s : State) : (finishSequence s).mode = s.mode ∨ (finishSequence s).mode = .idle := by
  unfold finishSequence; split <;> simp

@[simp] theorem finishIfEmpty_cfg (s : State) : (finishIfEmpty s).cfg = s.cfg := by
  unfold finishIfEmpty; split <;> simp

@[simp] theorem finishIfEmpty_pins (s : State) : (finishIfEmpty s).pins = s.pins := by
  unfold finishIfEmpty; split <;> simp

theorem finishIfEmpty_mode (s : State) : (finishIfEmpty s).mode = s.mode ∨ (finishIfEmpty s).mode = .idle := by
  unfold finishIfEmpty; split
  · exact finishSequence_mode s
  · exact .inl rfl

/-- The sequencer removes the head and performs it (R105). -/
theorem runSequencer_cons {s : State} {m : Micro} {rest : List Micro} (h : s.seq = m :: rest) :
    runSequencer s = finishIfEmpty (perform m (s.setSeq rest)) := by
  simp [runSequencer, h]

/-! ### A step of a quiet micro-operation -/

/-- What a command leaves alone while it runs: the parameters, the configuration, the pin map, the cursor to commit, the
device's ownership, the recorded error, and the host's moves. -/
structure CommandFrame (s t : State) : Prop where
  par : t.par = s.par
  cfg : t.cfg = s.cfg
  pins : t.pins = s.pins
  curNext : t.curNext = s.curNext
  held : t.held = s.held
  fatalInfo : t.fatalInfo = s.fatalInfo
  offers : t.offers = s.offers
  termIn : t.termIn = s.termIn
  cut : t.cut = s.cut

theorem CommandFrame.trans {s t u : State} (hst : CommandFrame s t) (htu : CommandFrame t u) : CommandFrame s u :=
  ⟨htu.par.trans hst.par, htu.cfg.trans hst.cfg, htu.pins.trans hst.pins, htu.curNext.trans hst.curNext,
    htu.held.trans hst.held, htu.fatalInfo.trans hst.fatalInfo, htu.offers.trans hst.offers,
    htu.termIn.trans hst.termIn, htu.cut.trans hst.cut⟩

/-- A frame keeps the host from terminating the block. -/
theorem CommandFrame.undisturbed {s t : State} (h : CommandFrame s t) (hs : Undisturbed s) : Undisturbed t :=
  ⟨h.cut.trans hs.1, h.termIn.trans hs.2⟩

theorem perform_commandFrame {m : Micro} (hm : isQuiet m = true) (s : State) (rest : List Micro) :
    CommandFrame s (perform m (s.setSeq rest)) := by
  obtain ⟨hpar, hcfg, hpins, -, hnext, hoffers, hterm, hcut⟩ := perform_frame m (s.setSeq rest)
  obtain ⟨-, -, hheld, hfatal⟩ := perform_quiet hm (s.setSeq rest)
  exact ⟨hpar, hcfg, hpins, hnext, hheld, hfatal, hoffers, hterm, hcut⟩

/-- One step of a command: its head is gone and has emitted its pin events, and the block is BUSY with what is left, or
IDLE with the cursor committed where nothing is (R31, R105). -/
theorem runSequencer_quiet {s : State} {m : Micro} {rest : List Micro} (hmode : s.mode = .busy)
    (hseq : s.seq = m :: rest) (hm : isQuiet m = true) :
    CommandFrame s (runSequencer s) ∧ (runSequencer s).seq = rest
      ∧ pinEvents (runSequencer s).trace = pinEvents s.trace ++ microPinEvents m
      ∧ (rest ≠ [] → (runSequencer s).mode = .busy)
      ∧ (rest = [] → (runSequencer s).mode = .idle ∧ (runSequencer s).cur = s.curNext) := by
  have hframe : CommandFrame s (perform m (s.setSeq rest)) := perform_commandFrame hm s rest
  obtain ⟨hmode', hseq', -, -⟩ := perform_quiet hm (s.setSeq rest)
  have htrace : pinEvents (perform m (s.setSeq rest)).trace = pinEvents s.trace ++ microPinEvents m :=
    perform_pinEvents m (s.setSeq rest)
  replace hmode' : (perform m (s.setSeq rest)).mode = .busy := hmode'.trans hmode
  rw [runSequencer_cons hseq]
  by_cases hrest : rest = []
  · rw [finishIfEmpty_busy (hseq'.trans hrest) hmode']
    exact ⟨{ hframe with }, hseq', htrace, fun h => absurd hrest h, fun _ => ⟨rfl, hframe.curNext⟩⟩
  · rw [finishIfEmpty_of_ne (hseq' ▸ hrest)]
    exact ⟨hframe, hseq', htrace, fun _ => hmode', fun h => absurd h hrest⟩

/-! ### A whole list -/

/-- A non-empty quiet list runs to its end, one micro-operation a step, and commits the cursor. -/
theorem runSteps_quiet {q : List Micro} {s : State} (hfree : Undisturbed s) (hmode : s.mode = .busy)
    (hseq : s.seq = q) (hne : q ≠ []) (hq : q.all isQuiet = true) :
    ∃ t : State, runSteps q.length s = .next t ∧ CommandFrame s t ∧ t.mode = .idle ∧ t.cur = s.curNext ∧ t.seq = []
      ∧ pinEvents t.trace = pinEvents s.trace ++ q.flatMap microPinEvents := by
  induction q generalizing s with
  | nil => exact absurd rfl hne
  | cons m rest ih =>
    obtain ⟨hm, hrestq⟩ : isQuiet m = true ∧ rest.all isQuiet = true := by simpa using hq
    obtain ⟨hframe, hseq', htrace, hbusy, hidle⟩ := runSequencer_quiet hmode hseq hm
    have hstep : step s = .next (runSequencer s) := step_running hfree (.inr hmode)
    rw [List.length_cons, runSteps_succ _ hstep]
    by_cases hrest : rest = []
    · obtain ⟨hmode', hcur⟩ := hidle hrest
      subst hrest
      exact ⟨_, rfl, hframe, hmode', hcur, hseq', by simpa using htrace⟩
    · obtain ⟨t, hrun, hframe', hmode', hcur, hend, htrace'⟩ :=
        ih (hframe.undisturbed hfree) (hbusy hrest) hseq' hrest hrestq
      refine ⟨t, hrun, hframe.trans hframe', hmode', hcur.trans hframe.curNext, hend, ?_⟩
      rw [htrace', htrace, List.flatMap_cons, List.append_assoc]

end Sys2Proof.Machine

namespace Sys2Proof.Proofs

open Sys2Proof.Machine

/-- Settles O41, by induction on the list (`runSteps_quiet`); the device's answers are nowhere split on. -/
theorem busyRunsToCompletion : Obligations.BusyRunsToCompletion := by
  unfold Obligations.BusyRunsToCompletion
  intro s hfree hmode hne hq
  obtain ⟨t, hrun, hframe, hidle, hcur, hseq, htrace⟩ := runSteps_quiet hfree hmode rfl hne hq
  exact ⟨t, hrun, hidle, hcur, hseq, hframe.par, hframe.cfg, hframe.pins, hframe.held, hframe.fatalInfo, hframe.offers,
    htrace⟩

end Sys2Proof.Proofs
end

section
/-! The ranges of the configuration and the cursor (00_scope.md R8; 10_state.md R21 to R28), and what each command
commits. -/

namespace Sys2Proof.Machine

/-! ### Validity, read as propositions -/

theorem configValid_iff {par : Params} {cfg : DisplayConfig} :
    configValid par cfg = true ↔
      (cfg.lines = 1 ∨ cfg.lines = 2 ∨ cfg.lines = 4) ∧ 0 < cfg.cols ∧ cfg.lines * cfg.cols ≤ par.ddramCapacity
        ∧ cfg.width = 4 := by
  simp [configValid, or_assoc, and_assoc]

theorem cursorInRange_iff {cfg : DisplayConfig} {c : Cursor} :
    cursorInRange cfg c = true ↔ c.col ≤ cfg.cols ∧ c.row < cfg.lines := by
  simp [cursorInRange]

/-- A valid configuration has a line. -/
theorem lines_pos {par : Params} {cfg : DisplayConfig} (h : configValid par cfg = true) : 0 < cfg.lines := by
  obtain ⟨hlines, -⟩ := configValid_iff.mp h
  omega

theorem allDistinct_iff_nodup {l : List Line} : allDistinct l = true ↔ l.Nodup := by
  induction l with
  | nil => simp [allDistinct]
  | cons p rest ih => simp [allDistinct, ih]

/-- What a valid pin map has (R23, D22). -/
theorem pinMapValid_bound {par : Params} {pins : PinMap} (h : pinMapValid par pins = true) :
    pins.regSel ≠ none ∧ pins.enable ≠ none ∧ pins.dat0 ≠ none ∧ (boundLines pins).Nodup := by
  simp only [pinMapValid, Bool.and_eq_true, allDistinct_iff_nodup, Option.isSome_iff_ne_none] at h
  obtain ⟨⟨⟨⟨hrs, he⟩, hdat⟩, hnodup⟩, -⟩ := h
  exact ⟨hrs, he, hdat, hnodup⟩

/-! ### INITIALIZE refused -/

theorem acceptStart_not_uninit {s : State} (dev : Device) (cfg : DisplayConfig) (pins : PinMap)
    (hmode : s.mode ≠ .uninit) : acceptStart dev cfg pins s = .refused (.alreadyStarted s.mode) := by
  simp [acceptStart, hmode]

theorem acceptStart_badConfig {s : State} (dev : Device) {cfg : DisplayConfig} (pins : PinMap)
    (hmode : s.mode = .uninit) (hcfg : ¬ configValid s.par cfg = true) :
    acceptStart dev cfg pins s = .refused .badConfig := by
  simp [acceptStart, hmode, hcfg]

theorem acceptStart_badPinMap {s : State} (dev : Device) {cfg : DisplayConfig} {pins : PinMap}
    (hmode : s.mode = .uninit) (hcfg : configValid s.par cfg = true) (hpins : ¬ pinMapValid s.par pins = true) :
    acceptStart dev cfg pins s = .refused .badPinMap := by
  simp [acceptStart, hmode, hcfg, hpins]

/-! ### What each command commits -/

section
variable {par : Params} {cfg : DisplayConfig} {cur : Cursor}

theorem cursorHome_inRange (hcfg : configValid par cfg = true) : cursorInRange cfg cursorHome = true :=
  cursorInRange_iff.mpr ⟨Nat.zero_le _, lines_pos hcfg⟩

/-- A cursor in range stays so in any column up to the park. -/
theorem cursorInRange_withCol (hcur : cursorInRange cfg cur = true) {col : Nat} (hcol : col ≤ cfg.cols) :
    cursorInRange cfg { cur with col := col } = true :=
  cursorInRange_iff.mpr ⟨hcol, (cursorInRange_iff.mp hcur).2⟩

theorem expandBackspace_inRange (hcur : cursorInRange cfg cur = true) :
    cursorInRange cfg (expandBackspace par cfg cur).next = true := by
  obtain ⟨hcol, -⟩ := cursorInRange_iff.mp hcur
  unfold expandBackspace
  split
  · exact cursorInRange_withCol hcur (by omega)
  · exact hcur

theorem newlineCursor_inRange (hcur : cursorInRange cfg cur = true) :
    cursorInRange cfg (newlineCursor cfg cur) = true := by
  obtain ⟨-, hrow⟩ := cursorInRange_iff.mp hcur
  rw [cursorInRange_iff]
  unfold newlineCursor
  split <;> simp <;> omega

theorem expandTab_inRange (hcur : cursorInRange cfg cur = true) :
    cursorInRange cfg (expandTab par cfg cur).next = true := by
  obtain ⟨hcol, -⟩ := cursorInRange_iff.mp hcur
  have hcount : cur.col + tabCount par cfg cur ≤ cfg.cols := by
    unfold tabCount
    omega
  exact cursorInRange_withCol hcur hcount

theorem expandChar_inRange (hcur : cursorInRange cfg cur = true) (c : Byte) :
    cursorInRange cfg (expandChar cfg cur c).next = true := by
  unfold expandChar
  split
  · next hlt => exact cursorInRange_withCol hcur hlt
  · exact hcur

/-- From a cursor in range every instruction commits one in range (R28); an emitted byte commits none of its own. -/
theorem expand_next_inRange (hcfg : configValid par cfg = true) (hcur : cursorInRange cfg cur = true) (i : Instr) :
    cursorInRange cfg (expand par cfg cur i).next = true := by
  cases i with
  | reset | clear | home => exact cursorHome_inRange hcfg
  | bksp => exact expandBackspace_inRange hcur
  | nl => exact newlineCursor_inRange hcur
  | cr => exact cursorInRange_withCol hcur (Nat.zero_le _)
  | tab => exact expandTab_inRange hcur
  | char c => exact expandChar_inRange hcur c
  | flash | unk | clearDisplay | returnHome | entryModeInc | displayOff | displayOn | cursorLeft | functionSet
  | setDdram => exact hcur

end

end Sys2Proof.Machine

namespace Sys2Proof.Proofs

open Sys2Proof.Machine

/-- Settles O29, one range lemma per command (`expand_next_inRange`). -/
theorem commandsKeepTheCursorInRange : Obligations.CommandsKeepTheCursorInRange := by
  unfold Obligations.CommandsKeepTheCursorInRange
  intro par cfg cur i hcfg hcur
  exact expand_next_inRange hcfg hcur i

/-- Settles O49: the three refusals of `acceptStart`, each from the reading of its check. -/
theorem startIsRefused : Obligations.StartIsRefused := by
  unfold Obligations.StartIsRefused
  refine ⟨fun s dev cfg pins hmode => acceptStart_not_uninit dev cfg pins hmode, ?_, ?_⟩
  · intro s dev cfg pins hmode hpar hillegal
    refine acceptStart_badConfig dev pins hmode fun hvalid => hillegal ?_
    rw [hpar] at hvalid
    exact configValid_iff.mp hvalid
  · intro s dev cfg pins hmode hcfg hbad
    refine acceptStart_badPinMap dev hmode hcfg fun hvalid => ?_
    obtain ⟨hrs, he, hdat, hnodup⟩ := pinMapValid_bound hvalid
    rcases hbad with h | h | h | h <;> contradiction

/-- Settles O60: a valid configuration within 80 positions has at most 80 columns and 4 rows. -/
theorem cursorFitsItsRegisters : Obligations.CursorFitsItsRegisters := by
  unfold Obligations.CursorFitsItsRegisters
  intro s hinv hpar hmode
  have hstarted : s.mode ≠ .uninit := by rcases hmode with h | h <;> simp [h]
  obtain ⟨hcol, hrow⟩ := cursorInRange_iff.mp (hinv.cursorRange hmode)
  obtain ⟨hlines, -, hcapacity, -⟩ := configValid_iff.mp (hinv.configured hstarted).1
  replace hcapacity : s.cfg.lines * s.cfg.cols ≤ 80 := by simpa [hpar, specParams] using hcapacity
  rcases hlines with h | h | h <;> rw [h] at hrow hcapacity <;> omega

end Sys2Proof.Proofs
end

section
/-! What acceptance of a command leaves unchanged (42_lifecycle.md R154), the issue of an emitted byte at rest
(30_encoding.md R87), the power-on state (10_state.md R38), and the immutable configuration (R20, R22). -/

namespace Sys2Proof.Machine

/-! ### The emitted bytes -/

/-- exec on an emitted byte is the issue of some byte (R80). -/
theorem exec_controller {i : Instr} (h : i.isCommand = false) (s : State) : ∃ b, exec i s = issueInstruction s b := by
  cases i with
  | reset | clear | bksp | nl | cr | home | tab | flash | char | unk => cases h
  | clearDisplay | returnHome | entryModeInc | displayOff | displayOn | cursorLeft | functionSet | setDdram =>
    exact ⟨_, rfl⟩

/-- Where no list runs no byte is issued (R30, log 7). -/
theorem issueInstruction_atRest {s : State} (b : Byte) (hinit : s.mode ≠ .init) (hbusy : s.mode ≠ .busy) :
    issueInstruction s b = .refused (.notEmitting s.mode) := by
  unfold issueInstruction
  split <;> simp_all

/-! ### The configuration and the pin map, once INITIALIZE has set them -/

/-- A started block stays started with the configuration and the pin map it has. -/
def KeepsSetup (s t : State) : Prop := t.cfg = s.cfg ∧ t.pins = s.pins ∧ t.mode ≠ .uninit

theorem finishSequence_keepsSetup {s : State} (h : s.mode ≠ .uninit) : KeepsSetup s (finishSequence s) := by
  refine ⟨by simp, by simp, ?_⟩
  rcases finishSequence_mode s with hm | hm <;> simp [hm, h]

theorem runSequencer_keepsSetup {s : State} (h : s.mode ≠ .uninit) : KeepsSetup s (runSequencer s) := by
  cases hseq : s.seq with
  | nil =>
    have hrun : runSequencer s = finishSequence s := by simp [runSequencer, hseq]
    exact hrun ▸ finishSequence_keepsSetup h
  | cons m rest =>
    obtain ⟨-, hcfg, hpins, -⟩ := perform_frame m (s.setSeq rest)
    have hmode : (perform m (s.setSeq rest)).mode ≠ .uninit := by
      rcases perform_lifecycle m (s.setSeq rest) with ⟨hm, -⟩ | ⟨hm, -⟩ <;> simp [hm, h]
    rw [runSequencer_cons hseq]
    refine ⟨by simpa using hcfg, by simpa using hpins, ?_⟩
    rcases finishIfEmpty_mode (perform m (s.setSeq rest)) with hm | hm <;> simp [hm, hmode]

theorem acceptOffer_keepsSetup {op : HostOp} {s t : State} (h : s.mode ≠ .uninit) (hop : acceptOffer op s = .next t) :
    KeepsSetup s t := by
  cases op with
  | start dev cfg pins =>
    obtain ⟨hmode, -⟩ := acceptStart_cases hop
    exact absurd hmode h
  | command w =>
    have haccept : acceptCommand s (expand s.par s.cfg s.cur (decodeCommand w)) = .next t :=
      (exec_command (decodeCommand_isCommand w) s).symm.trans hop
    obtain ⟨-, ⟨-, rfl⟩ | ⟨-, rfl⟩⟩ := acceptCommand_cases haccept
    · exact ⟨rfl, rfl, by simp⟩
    · exact ⟨rfl, rfl, h⟩
  | shutdown =>
    obtain ⟨-, rfl⟩ := acceptShutdown_cases hop
    exact ⟨rfl, rfl, by simp⟩

theorem advance_keepsSetup {s t : State} (h : s.mode ≠ .uninit) (hadvance : advance s = .next t) : KeepsSetup s t := by
  obtain ⟨-, rfl⟩ | ⟨-, -, rfl⟩ | ⟨op, rest, -, -, -, hoffer⟩ := advance_cases hadvance
  · exact runSequencer_keepsSetup h
  · exact ⟨rfl, rfl, h⟩
  · exact acceptOffer_keepsSetup (s := { s with offers := rest }) h hoffer

theorem step_keepsSetup {s t : State} (h : s.mode ≠ .uninit) (hstep : step s = .next t) : KeepsSetup s t := by
  obtain ⟨-, ⟨-, rfl⟩ | ⟨n, -, hadvance⟩ | ⟨-, hadvance⟩⟩ := step_cases hstep
  · exact ⟨rfl, rfl, h⟩
  · exact advance_keepsSetup (s := { s with termIn := some n }) h hadvance
  · exact advance_keepsSetup h hadvance

end Sys2Proof.Machine

namespace Sys2Proof.Proofs

open Sys2Proof.Machine

/-- Settles O19: the two outcomes of `acceptCommand_cases`, BUSY with a list or completed at once. -/
theorem acceptanceFrame : Obligations.AcceptanceFrame := by
  unfold Obligations.AcceptanceFrame
  intro s t i hi hexec
  rw [exec_command hi] at hexec
  obtain ⟨hmode, ⟨hitems, rfl⟩ | ⟨-, rfl⟩⟩ := acceptCommand_cases hexec
  · have hseq : itemsMicros s.par s.pins (expand s.par s.cfg s.cur i).items ≠ [] := mt itemsMicros_eq_nil.mp hitems
    exact ⟨rfl, rfl, rfl, rfl, rfl, fun _ => rfl, rfl, rfl, rfl, rfl, rfl, rfl, rfl, .inl ⟨rfl, hseq, rfl⟩⟩
  · exact ⟨rfl, rfl, rfl, rfl, rfl, fun _ => rfl, rfl, rfl, rfl, rfl, rfl, rfl, rfl, .inr ⟨hmode, rfl, rfl⟩⟩

/-- Settles O57: no case of `step_cases` outside UNINIT writes the configuration or the pin map. -/
theorem configurationIsImmutable : Obligations.ConfigurationIsImmutable := by
  unfold Obligations.ConfigurationIsImmutable
  intro s t hstep hmode
  exact step_keepsSetup hmode hstep

/-- Settles O22: an emitted byte is only ever issued, and the issue is refused at rest. -/
theorem noByteIsIssuedAtRest : Obligations.NoByteIsIssuedAtRest := by
  unfold Obligations.NoByteIsIssuedAtRest
  intro s i hi hinit hbusy
  obtain ⟨b, hb⟩ := exec_controller hi s
  rw [hb, issueInstruction_atRest b hinit hbusy]

/-- Settles O55: the fields of `State.reset`, whose level store is empty, so that every line reads U. -/
theorem powerOnState : Obligations.PowerOnState := by
  unfold Obligations.PowerOnState
  exact ⟨rfl, rfl, rfl, rfl, rfl, fun _ => rfl⟩

end Sys2Proof.Proofs
end

section
/-! The invariant, kept by every step (10_state.md sections 2 to 4). `InvIn` reads the invariant mode by mode; each of the
block's moves is checked against the one mode it leads to. -/

namespace Sys2Proof.Machine

/-! ### The invariant, mode by mode -/

/-- The lines: a canonical store, and bound lines only, in the store and in the list (R34, R51). -/
structure LinesBound (s : State) : Prop where
  canonical : linesCanonical s.out
  outBound : ∀ e ∈ s.out, e.1 ∈ boundLines s.pins
  seqBound : ∀ m ∈ s.seq, ∀ p, microLine m = some p → p ∈ boundLines s.pins

/-- The configuration and the pin map are ones INITIALIZE accepts (R21, R23). -/
def Configured (s : State) : Prop := configValid s.par s.cfg = true ∧ pinMapValid s.par s.pins = true

/-- No fatal error is recorded, and the device was never released. -/
def Unended (s : State) : Prop := s.fatalInfo = none ∧ s.trace.count .release = 0

/-- What the invariant asks of the rest of the state in a mode. -/
abbrev InvIn (m : Mode) (s : State) : Prop :=
  match m with
  | .uninit => Unended s ∧ s.seq = [] ∧ s.held = false ∧ s.out = [] ∧ s.trace = []
  | .init => Configured s ∧ Unended s ∧ s.seq ≠ [] ∧ initShape s
  | .idle => Configured s ∧ Unended s ∧ s.seq = [] ∧ s.held = true ∧ cursorInRange s.cfg s.cur = true
  | .busy => Configured s ∧ Unended s ∧ s.seq ≠ [] ∧ s.seq.all isQuiet = true ∧ s.held = true
      ∧ cursorInRange s.cfg s.cur = true ∧ cursorInRange s.cfg s.curNext = true
  | .fatal => Configured s ∧ s.seq = [] ∧ s.held = false ∧ s.fatalInfo.isSome = true
      ∧ s.trace.count .release = releasesDue s
  | .off => Configured s ∧ s.seq = [] ∧ s.held = false ∧ s.fatalInfo = none ∧ s.trace.count .release = 1

theorem inv_of_invIn {s : State} {m : Mode} (hmode : s.mode = m) (hlines : LinesBound s) (h : InvIn m s) : Inv s := by
  refine { hlines with
    fresh := ?_, configured := ?_, seqRunning := ?_, busyQuiet := ?_, starting := ?_, heldRunning := ?_,
    heldEnded := ?_, cursorRange := ?_, nextRange := ?_, fatalRecorded := ?_, releasedOnce := ?_ }
  all_goals cases m <;> simp_all [InvIn, Configured, Unended, releasesDue]

theorem Inv.linesBound {s : State} (h : Inv s) : LinesBound s := { h with }

theorem Inv.invIn {s : State} (h : Inv s) : InvIn s.mode s := by
  obtain ⟨-, -, -, fresh, configured, seqRunning, busyQuiet, starting, heldRunning, heldEnded, cursorRange, nextRange,
    fatalRecorded, releasedOnce⟩ := h
  cases hm : s.mode <;> simp_all [InvIn, Configured, Unended, releasesDue]

theorem Inv.invIn_of_mode {s : State} {m : Mode} (h : Inv s) (hmode : s.mode = m) : InvIn m s := hmode ▸ h.invIn

/-! ### The environment's moves: the invariant does not speak of them -/

theorem inv_terminate {s : State} (h : Inv s) : Inv (terminate s) := { h with }

theorem inv_withTermIn {s : State} (h : Inv s) (n : Option Nat) : Inv { s with termIn := n } := { h with }

theorem inv_withOffers {s : State} (h : Inv s) (ops : List HostOp) : Inv { s with offers := ops } := { h with }

/-! ### The lines -/

/-- Performing the head drives a bound line or none. -/
theorem perform_linesBound {s : State} {m : Micro} {rest : List Micro} (h : LinesBound s) (hseq : s.seq = m :: rest) :
    LinesBound (perform m (s.setSeq rest)) := by
  obtain ⟨hcanonical, hout, hseqBound⟩ := h
  obtain ⟨-, -, hpins, -⟩ := perform_frame m (s.setSeq rest)
  rw [setSeq_pins] at hpins
  rw [hseq, List.forall_mem_cons] at hseqBound
  obtain ⟨hhead, hrest⟩ := hseqBound
  have hlist : ∀ m' ∈ (perform m (s.setSeq rest)).seq, ∀ p, microLine m' = some p → p ∈ boundLines s.pins := by
    rcases perform_lifecycle m (s.setSeq rest) with ⟨-, h⟩ | ⟨-, h⟩ <;> rw [h]
    · exact hrest
    · simp
  rcases perform_out m (s.setSeq rest) with h | ⟨p, v, rfl, h | h⟩
  · exact ⟨by rwa [h], by rwa [h, hpins], by rwa [hpins]⟩
  · refine ⟨h ▸ putLine_canonical p v hcanonical, ?_, by rwa [hpins]⟩
    rw [h, hpins]
    intro e he
    rcases mem_putLine he with rfl | he
    · exact hhead p rfl
    · exact hout e he
  · refine ⟨h ▸ dropLine_canonical p hcanonical, ?_, by rwa [hpins]⟩
    rw [h, hpins]
    exact fun e he => hout e (mem_dropLine he)

/-- An expansion addresses bound lines (R51). -/
theorem itemsMicros_bound (par : Params) (pins : PinMap) (items : List Item) :
    ∀ m ∈ itemsMicros par pins items, ∀ p, microLine m = some p → p ∈ boundLines pins := by
  intro m hm p hp
  obtain ⟨r, -, hr⟩ := itemsMicros_line hm hp
  exact mem_boundLines hr

/-! ### The sequencer, BUSY -/

/-- The end of a step in BUSY: what is left of the list stands, or the cursor is committed (R31, R105). -/
theorem finishIfEmpty_inv_busy {s : State} (hmode : s.mode = .busy) (hlines : LinesBound s) (hcfg : Configured s)
    (hend : Unended s) (hquiet : s.seq.all isQuiet = true) (hheld : s.held = true)
    (hcur : cursorInRange s.cfg s.cur = true) (hnext : cursorInRange s.cfg s.curNext = true) :
    Inv (finishIfEmpty s) := by
  by_cases hseq : s.seq = []
  · rw [finishIfEmpty_busy hseq hmode]
    exact inv_of_invIn (m := .idle) rfl { hlines with } ⟨hcfg, hend, hseq, hheld, hnext⟩
  · rw [finishIfEmpty_of_ne hseq]
    exact inv_of_invIn hmode hlines ⟨hcfg, hend, hseq, hquiet, hheld, hcur, hnext⟩

theorem perform_configured {s : State} (h : Configured s) (m : Micro) (rest : List Micro) :
    Configured (perform m (s.setSeq rest)) := by
  obtain ⟨hpar, hcfg, hpins, -⟩ := perform_frame m (s.setSeq rest)
  unfold Configured
  rw [hpar, hcfg, hpins]
  exact h

/-- SET, WAIT and WARN release nothing. -/
theorem perform_quiet_releases {m : Micro} (hm : isQuiet m = true) (s : State) :
    (perform m s).trace.count .release = s.trace.count .release := by
  cases m <;> simp [isQuiet] at hm
  case setPin p v =>
    unfold perform performSet; simp only [nextAnswer_emit]
    cases s.nextAnswer <;> simp
  case wait t => simp [perform, performWait]
  case warn w => simp [perform]

theorem perform_quiet_unended {m : Micro} (hm : isQuiet m = true) {s : State} (h : Unended s) (rest : List Micro) :
    Unended (perform m (s.setSeq rest)) := by
  obtain ⟨-, -, -, hfatal⟩ := perform_quiet hm (s.setSeq rest)
  exact ⟨hfatal.trans h.1, (perform_quiet_releases hm _).trans h.2⟩

theorem runSequencer_inv_busy {s : State} (h : Inv s) (hmode : s.mode = .busy) : Inv (runSequencer s) := by
  obtain ⟨hcfg, hend, hne, hquiet, hheld, hcur, hnext⟩ := h.invIn_of_mode hmode
  obtain ⟨m, rest, hseq⟩ := List.exists_cons_of_ne_nil hne
  obtain ⟨hm, hrest⟩ : isQuiet m = true ∧ rest.all isQuiet = true := by simpa [hseq] using hquiet
  obtain ⟨hmode', hseq', -, -⟩ := perform_quiet hm (s.setSeq rest)
  obtain ⟨-, hcfg', -, hcur', -⟩ := perform_frame m (s.setSeq rest)
  have hframe := perform_commandFrame hm s rest
  rw [runSequencer_cons hseq]
  refine finishIfEmpty_inv_busy (hmode'.trans hmode) (perform_linesBound h.linesBound hseq)
    (perform_configured hcfg m rest) (perform_quiet_unended hm hend rest) (hseq' ▸ hrest) (hframe.held.trans hheld) ?_ ?_
  · rw [hcfg', hcur']
    exact hcur
  · rw [hframe.cfg, hframe.curNext]
    exact hnext

/-! ### The sequencer, INIT -/

/-- The end of a step in INIT once the device is held: the set-up steps left stand, or the cursor is (0, 0) (R150). -/
theorem finishIfEmpty_inv_init {s : State} (hmode : s.mode = .init) (hlines : LinesBound s) (hcfg : Configured s)
    (hend : Unended s) (hsetUp : s.seq.all isSetUp = true) (hheld : s.held = true) : Inv (finishIfEmpty s) := by
  by_cases hseq : s.seq = []
  · rw [finishIfEmpty_init hseq hmode]
    exact inv_of_invIn (m := .idle) rfl { hlines with } ⟨hcfg, hend, hseq, hheld, cursorHome_inRange hcfg.1⟩
  · rw [finishIfEmpty_of_ne hseq]
    exact inv_of_invIn hmode hlines ⟨hcfg, hend, hseq, .inr ⟨hheld, hsetUp⟩⟩

/-- A fatal error with the release it owes: none where OPEN failed, one where a CFG did (R174). -/
theorem finishIfEmpty_raiseFatal_inv {s : State} {f : FatalInfo} (hlines : LinesBound s) (hcfg : Configured s)
    (hend : Unended s) (hheld : s.held = true ↔ ∃ p, f = .configError p) : Inv (finishIfEmpty (raiseFatal f s)) := by
  rw [finishIfEmpty_fatal rfl]
  refine inv_of_invIn rfl ⟨by simpa using hlines.canonical, by simpa using hlines.outBound, by simp⟩
    ⟨by simpa [Configured] using hcfg, rfl, raiseFatal_held f s, rfl, ?_⟩
  have hcount : (raiseFatal f s).trace.count .release = if s.held then 1 else 0 := by
    rw [raiseFatal_trace]
    split <;> simp [hend.2]
  cases f with
  | openError dev => simpa [releasesDue] using hcount.trans (by simp [hheld])
  | configError p => simpa [releasesDue] using hcount.trans (by simp [hheld])

section
variable {s : State} {m : Micro} {rest : List Micro}

/-- The head is removed and its request made: the lines are as they were. -/
theorem request_linesBound (h : LinesBound s) (hseq : s.seq = m :: rest) (e : Event) :
    LinesBound ((s.setSeq rest).emit e).dropAnswer := by
  refine ⟨by simpa using h.canonical, by simpa using h.outBound, fun m' hm' p hp => ?_⟩
  have hmem : m' ∈ s.seq := by
    rw [hseq]
    exact List.mem_cons_of_mem m (by simpa using hm')
  simpa using h.seqBound m' hmem p hp

theorem request_configured (h : Configured s) (e : Event) : Configured ((s.setSeq rest).emit e).dropAnswer := by
  simpa [Configured] using h

theorem request_unended (h : Unended s) {e : Event} (he : e ≠ .release) :
    Unended ((s.setSeq rest).emit e).dropAnswer := by
  simpa [Unended, List.count_append, he] using h

theorem runSequencer_inv_open {dev : Device} (h : Inv s) (hmode : s.mode = .init) (hseq : s.seq = .openDev dev :: rest)
    (hheld : s.held = false) (hsetUp : rest.all isSetUp = true) : Inv (runSequencer s) := by
  obtain ⟨hcfg, hend, -, -⟩ := h.invIn_of_mode hmode
  have hlines := request_linesBound h.linesBound hseq (.openDev dev)
  have hcfg' : Configured ((s.setSeq rest).emit (.openDev dev)).dropAnswer := request_configured hcfg _
  have hend' : Unended ((s.setSeq rest).emit (.openDev dev)).dropAnswer := request_unended hend (by simp)
  rw [runSequencer_cons hseq]
  rcases perform_openDev_cases dev (s.setSeq rest) with hok | hfail
  · rw [hok]
    exact finishIfEmpty_inv_init (by simpa using hmode) { hlines with } hcfg' hend' (by simpa using hsetUp) rfl
  · rw [hfail]
    exact finishIfEmpty_raiseFatal_inv hlines hcfg' hend' (by simp [hheld])

theorem runSequencer_inv_setUp (h : Inv s) (hmode : s.mode = .init) (hseq : s.seq = m :: rest) (hheld : s.held = true)
    (hm : isSetUp m = true) (hsetUp : rest.all isSetUp = true) : Inv (runSequencer s) := by
  obtain ⟨hcfg, hend, -, -⟩ := h.invIn_of_mode hmode
  have quiet : isQuiet m = true → Inv (finishIfEmpty (perform m (s.setSeq rest))) := by
    intro hquiet
    obtain ⟨hmode', hseq', hheld', -⟩ := perform_quiet hquiet (s.setSeq rest)
    exact finishIfEmpty_inv_init (hmode'.trans hmode) (perform_linesBound h.linesBound hseq)
      (perform_configured hcfg m rest) (perform_quiet_unended hquiet hend rest) (hseq' ▸ hsetUp) (hheld'.trans hheld)
  rw [runSequencer_cons hseq]
  cases m with
  | cfgPin p =>
    have hlines := request_linesBound h.linesBound hseq (.cfgPin p)
    have hcfg' : Configured ((s.setSeq rest).emit (.cfgPin p)).dropAnswer := request_configured hcfg _
    have hend' : Unended ((s.setSeq rest).emit (.cfgPin p)).dropAnswer := request_unended hend (by simp)
    rcases perform_cfgPin_cases p (s.setSeq rest) with hok | hfail
    · rw [hok]
      exact finishIfEmpty_inv_init (by simpa using hmode) hlines hcfg' hend' (by simpa using hsetUp)
        (by simpa using hheld)
    · rw [hfail]
      exact finishIfEmpty_raiseFatal_inv hlines hcfg' hend' (by simp [hheld])
  | setPin p v => exact quiet rfl
  | wait t => exact quiet rfl
  | openDev | warn | release | fatal => cases hm

end

theorem runSequencer_inv_init {s : State} (h : Inv s) (hmode : s.mode = .init) : Inv (runSequencer s) := by
  obtain ⟨-, -, hne, ⟨hheld, dev, rest, hseq, hsetUp, -⟩ | ⟨hheld, hsetUp⟩⟩ := h.invIn_of_mode hmode
  · exact runSequencer_inv_open h hmode hseq hheld hsetUp
  · obtain ⟨m, rest, hseq⟩ := List.exists_cons_of_ne_nil hne
    obtain ⟨hm, hrest⟩ : isSetUp m = true ∧ rest.all isSetUp = true := by simpa [hseq] using hsetUp
    exact runSequencer_inv_setUp h hmode hseq hheld hm hrest

/-! ### INITIALIZE's list -/

/-- The list of INITIALIZE after its OPEN (R150). -/
def setUpMicros (par : Params) (cfg : DisplayConfig) (pins : PinMap) : List Micro :=
  roles.flatMap (setUpRole pins) ++ backlightDefault cfg pins ++ powerOnWait par
    ++ itemsMicros par pins (expandReset par cfg).items

theorem startMicros_eq (par : Params) (dev : Device) (cfg : DisplayConfig) (pins : PinMap) :
    startMicros par dev cfg pins = .openDev dev :: setUpMicros par cfg pins := by
  simp [startMicros, setUpMicros]

theorem expandReset_items_ne_nil (par : Params) (cfg : DisplayConfig) : (expandReset par cfg).items ≠ [] := by
  simp [expandReset, controlItems]

theorem setUpMicros_ne_nil (par : Params) (cfg : DisplayConfig) (pins : PinMap) : setUpMicros par cfg pins ≠ [] := by
  intro h
  exact expandReset_items_ne_nil par cfg (itemsMicros_eq_nil.mp (List.append_eq_nil_iff.mp h).2)

/-- RESET warns of nothing: its items are WRITEs and WAITs (R120). -/
theorem expandReset_items {par : Params} {cfg : DisplayConfig} {it : Item} (h : it ∈ (expandReset par cfg).items) :
    (∃ b, it = .write false b) ∨ ∃ t, it = .wait t := by
  simp only [expandReset, functionSetItems, controlItems, clearItems, List.mem_append, List.mem_flatMap, List.mem_cons,
    List.not_mem_nil, or_false] at h
  rcases h with (⟨e, -, rfl | rfl⟩ | rfl | rfl | rfl | rfl | rfl | rfl) | rfl | rfl <;> simp

/-- A set-up step that addresses a bound line or none. -/
def IsBoundSetUp (pins : PinMap) (m : Micro) : Prop :=
  isSetUp m = true ∧ ∀ p, microLine m = some p → p ∈ boundLines pins

theorem isBoundSetUp_wait (pins : PinMap) (t : Micros) : IsBoundSetUp pins (.wait t) := ⟨rfl, by simp [microLine]⟩

theorem isBoundSetUp_setPin {pins : PinMap} {r : Role} {p : Line} (h : lineOf pins r = some p) (v : Bool) :
    IsBoundSetUp pins (.setPin p v) := by
  refine ⟨rfl, fun q hq => ?_⟩
  cases hq
  exact mem_boundLines h

theorem isBoundSetUp_cfgPin {pins : PinMap} {r : Role} {p : Line} (h : lineOf pins r = some p) :
    IsBoundSetUp pins (.cfgPin p) := by
  refine ⟨rfl, fun q hq => ?_⟩
  cases hq
  exact mem_boundLines h

section
variable {par : Params} {cfg : DisplayConfig} {pins : PinMap} {m : Micro}

theorem setRole_boundSetUp {r : Role} {v : Bool} (h : m ∈ setRole pins r v) : IsBoundSetUp pins m := by
  obtain ⟨p, hp, rfl⟩ := mem_setRole h
  exact isBoundSetUp_setPin hp v

theorem cfgRole_boundSetUp {r : Role} (h : m ∈ cfgRole pins r) : IsBoundSetUp pins m := by
  unfold cfgRole at h
  split at h
  · next p hp =>
    obtain rfl := List.mem_singleton.mp h
    exact isBoundSetUp_cfgPin hp
  · cases h

theorem writeMicros_boundSetUp {rs : Bool} {b : Byte} (h : m ∈ writeMicros par pins rs b) : IsBoundSetUp pins m := by
  obtain ⟨t, rfl⟩ | ⟨r, p, v, -, hp, rfl⟩ := mem_writeMicros h
  · exact isBoundSetUp_wait pins t
  · exact isBoundSetUp_setPin hp v

theorem resetMicros_boundSetUp (h : m ∈ itemsMicros par pins (expandReset par cfg).items) : IsBoundSetUp pins m := by
  obtain ⟨it, hit, hm⟩ := List.mem_flatMap.mp h
  obtain ⟨b, rfl⟩ | ⟨t, rfl⟩ := expandReset_items hit
  · exact writeMicros_boundSetUp hm
  · obtain rfl := List.mem_singleton.mp hm
    exact isBoundSetUp_wait pins t

theorem setUpMicros_boundSetUp (h : m ∈ setUpMicros par cfg pins) : IsBoundSetUp pins m := by
  simp only [setUpMicros, List.mem_append, List.mem_flatMap] at h
  obtain ((⟨r, -, hr⟩ | hbacklight) | hwait) | hreset := h
  · rcases List.mem_append.mp hr with hr | hr
    · exact cfgRole_boundSetUp hr
    · exact setRole_boundSetUp hr
  · unfold backlightDefault at hbacklight
    split at hbacklight
    · exact setRole_boundSetUp hbacklight
    · cases hbacklight
  · unfold powerOnWait at hwait
    split at hwait
    · obtain rfl := List.mem_singleton.mp hwait
      exact isBoundSetUp_wait pins _
    · cases hwait
  · exact resetMicros_boundSetUp hreset

end

/-! ### The host's operations -/

theorem acceptStart_inv {dev : Device} {cfg : DisplayConfig} {pins : PinMap} {s t : State} (h : Inv s)
    (hop : acceptStart dev cfg pins s = .next t) : Inv t := by
  obtain ⟨hmode, hcfg, hpins, rfl⟩ := acceptStart_cases hop
  obtain ⟨hend, -, hheld, hout, -⟩ := h.invIn_of_mode hmode
  rw [startMicros_eq]
  have hlist : ∀ m ∈ .openDev dev :: setUpMicros s.par cfg pins, ∀ p, microLine m = some p → p ∈ boundLines pins := by
    rw [List.forall_mem_cons]
    exact ⟨by simp [microLine], fun m hm => (setUpMicros_boundSetUp hm).2⟩
  have hsetUp : (setUpMicros s.par cfg pins).all isSetUp = true :=
    List.all_eq_true.mpr fun m hm => (setUpMicros_boundSetUp hm).1
  exact inv_of_invIn (m := .init) rfl ⟨h.canonical, by simp [hout], hlist⟩
    ⟨⟨hcfg, hpins⟩, hend, List.cons_ne_nil _ _, .inl ⟨hheld, dev, _, rfl, hsetUp, setUpMicros_ne_nil s.par cfg pins⟩⟩

theorem acceptCommand_inv {s t : State} {x : Expansion} (h : Inv s) (hnext : cursorInRange s.cfg x.next = true)
    (hop : acceptCommand s x = .next t) : Inv t := by
  obtain ⟨hmode, hcases⟩ := acceptCommand_cases hop
  obtain ⟨hcfg, hend, -, hheld, hcur⟩ := h.invIn_of_mode hmode
  obtain ⟨hitems, rfl⟩ | ⟨-, rfl⟩ := hcases
  · exact inv_of_invIn (m := .busy) rfl ⟨h.canonical, h.outBound, itemsMicros_bound s.par s.pins x.items⟩
      ⟨hcfg, hend, mt itemsMicros_eq_nil.mp hitems, itemsMicros_quiet s.par s.pins x.items, hheld, hcur, hnext⟩
  · exact inv_of_invIn (m := .idle) hmode ⟨h.canonical, h.outBound, by simp⟩ ⟨hcfg, hend, rfl, hheld, hnext⟩

theorem acceptShutdown_inv {s t : State} (h : Inv s) (hop : acceptShutdown s = .next t) : Inv t := by
  obtain ⟨hmode, rfl⟩ := acceptShutdown_cases hop
  obtain ⟨hcfg, hend, -, -, -⟩ := h.invIn_of_mode hmode
  have hreleased : (s.trace ++ [Event.release]).count .release = 1 := by simp [hend.2]
  exact inv_of_invIn (m := .off) rfl ⟨h.canonical, h.outBound, by simp⟩ ⟨hcfg, rfl, rfl, hend.1, hreleased⟩

theorem acceptOffer_inv {op : HostOp} {s t : State} (h : Inv s) (hop : acceptOffer op s = .next t) : Inv t := by
  cases op with
  | start dev cfg pins => exact acceptStart_inv h hop
  | command w =>
    have haccept : acceptCommand s (expand s.par s.cfg s.cur (decodeCommand w)) = .next t :=
      (exec_command (decodeCommand_isCommand w) s).symm.trans hop
    obtain ⟨hmode, -⟩ := acceptCommand_cases haccept
    obtain ⟨hcfg, -, -, -, hcur⟩ := h.invIn_of_mode hmode
    exact acceptCommand_inv h (expand_next_inRange hcfg.1 hcur _) haccept
  | shutdown => exact acceptShutdown_inv h hop

/-! ### The step -/

theorem advance_inv {s t : State} (h : Inv s) (hadvance : advance s = .next t) : Inv t := by
  obtain ⟨hinit | hbusy, rfl⟩ | ⟨-, -, rfl⟩ | ⟨op, rest, -, -, -, hoffer⟩ := advance_cases hadvance
  · exact runSequencer_inv_init h hinit
  · exact runSequencer_inv_busy h hbusy
  · exact h
  · exact acceptOffer_inv (inv_withOffers h rest) hoffer

theorem step_inv {s t : State} (h : Inv s) (hstep : step s = .next t) : Inv t := by
  obtain ⟨-, ⟨-, rfl⟩ | ⟨n, -, hadvance⟩ | ⟨-, hadvance⟩⟩ := step_cases hstep
  · exact inv_terminate h
  · exact advance_inv (inv_withTermIn h (some n)) hadvance
  · exact advance_inv h hadvance

theorem reset_inv : Inv State.reset :=
  inv_of_invIn (m := .uninit) rfl ⟨List.Pairwise.nil, by simp [State.reset], by simp [State.reset]⟩
    ⟨⟨rfl, rfl⟩, rfl, rfl, rfl, rfl⟩

end Sys2Proof.Machine

namespace Sys2Proof.Proofs

open Sys2Proof.Machine

/-- Settles O58: in UNINIT the invariant asks for nothing but an untouched block. -/
theorem powerOnMeetsTheInvariant : Obligations.PowerOnMeetsTheInvariant := by
  unfold Obligations.PowerOnMeetsTheInvariant
  exact reset_inv

/-- Settles O59, over the block's moves as `step_cases` and `advance_cases` list them (`step_inv`). -/
theorem stepKeepsTheInvariant : Obligations.StepKeepsTheInvariant := by
  unfold Obligations.StepKeepsTheInvariant
  intro s t h hstep
  exact step_inv h hstep

end Sys2Proof.Proofs
end

section
/-! DDRAM addresses (20_memory.md R53, R55, R56): the address of each logical row, and why no two positions of a display
share one. The two banks are `BANK2_OFFSET` apart and the two halves of a bank `COLS` apart, so an address below the
offset gives back its half and its column by division. -/

namespace Sys2Proof.Machine

/-! ### The four rows -/

section
variable (par : Params) (cfg : DisplayConfig) (col : Nat)

@[simp] theorem calcAddr_row0 : calcAddr par cfg { row := 0, col := col } = col := by simp [calcAddr]

@[simp] theorem calcAddr_row1 : calcAddr par cfg { row := 1, col := col } = par.bank2Offset + col := by
  simp [calcAddr, Nat.add_comm]

@[simp] theorem calcAddr_row2 : calcAddr par cfg { row := 2, col := col } = cfg.cols + col := by
  simp [calcAddr, Nat.add_comm]

@[simp] theorem calcAddr_row3 :
    calcAddr par cfg { row := 3, col := col } = par.bank2Offset + cfg.cols + col := by
  simp [calcAddr, Nat.add_comm, Nat.add_left_comm]

end

/-! ### Bank, half and column of an address -/

/-- The place of a cursor within its bank: rows 2 and 3 stand `COLS` above rows 0 and 1 (R55). -/
def bankPlace (cfg : DisplayConfig) (c : Cursor) : Nat := c.col + cfg.cols * (c.row / 2)

/-- Odd rows stand in the second bank (R53). -/
theorem calcAddr_eq_bankPlace (par : Params) (cfg : DisplayConfig) {c : Cursor} (hrow : c.row < 4) :
    calcAddr par cfg c = bankPlace cfg c + par.bank2Offset * (c.row % 2) := by
  obtain ⟨row, col⟩ := c
  change row < 4 at hrow
  interval_cases row
  all_goals simp [bankPlace]
  all_goals omega

/-- A bank of a display of several lines holds at most 40 positions, so it ends below the second bank (R8, R11). -/
theorem bankPlace_lt {cfg : DisplayConfig} {c : Cursor} (hcfg : configValid specParams cfg = true)
    (hlines : cfg.lines ≠ 1) (hcol : c.col < cfg.cols) (hrow : c.row < cfg.lines) : bankPlace cfg c < 0x40 := by
  obtain ⟨hvalid, -, hcapacity, -⟩ := configValid_iff.mp hcfg
  change cfg.lines * cfg.cols ≤ 80 at hcapacity
  unfold bankPlace
  obtain h | h | h := hvalid
  · exact absurd h hlines
  · have hhalf : c.row / 2 = 0 := by omega
    rw [h] at hcapacity
    rw [hhalf]
    omega
  · have hhalf : cfg.cols * (c.row / 2) ≤ cfg.cols * 1 := Nat.mul_le_mul_left _ (by omega)
    rw [h] at hcapacity
    omega

/-- The place within the bank gives back the half of the bank and the column. -/
theorem bankPlace_inj {cfg : DisplayConfig} {c d : Cursor} (hc : c.col < cfg.cols) (hd : d.col < cfg.cols)
    (h : bankPlace cfg c = bankPlace cfg d) : c.col = d.col ∧ c.row / 2 = d.row / 2 := by
  have hcols : 0 < cfg.cols := Nat.zero_lt_of_lt hc
  constructor
  · simpa [bankPlace, Nat.mod_eq_of_lt hc, Nat.mod_eq_of_lt hd] using congrArg (· % cfg.cols) h
  · simpa [bankPlace, Nat.add_mul_div_left _ _ hcols, Nat.div_eq_of_lt hc, Nat.div_eq_of_lt hd]
      using congrArg (· / cfg.cols) h

/-- A display of one line has row 0 alone, whose addresses are its columns; with more lines the address gives back the
bank, and the place in the bank the rest. -/
theorem calcAddr_inj {cfg : DisplayConfig} {c d : Cursor} (hcfg : configValid specParams cfg = true)
    (hccol : c.col < cfg.cols) (hcrow : c.row < cfg.lines) (hdcol : d.col < cfg.cols) (hdrow : d.row < cfg.lines)
    (h : calcAddr specParams cfg c = calcAddr specParams cfg d) : c = d := by
  obtain ⟨hvalid, -⟩ := configValid_iff.mp hcfg
  rw [calcAddr_eq_bankPlace _ _ (by omega), calcAddr_eq_bankPlace _ _ (by omega)] at h
  change bankPlace cfg c + 0x40 * (c.row % 2) = bankPlace cfg d + 0x40 * (d.row % 2) at h
  obtain ⟨hbank, hplace⟩ : c.row % 2 = d.row % 2 ∧ bankPlace cfg c = bankPlace cfg d := by
    by_cases hlines : cfg.lines = 1
    · omega
    · have hcplace := bankPlace_lt hcfg hlines hccol hcrow
      have hdplace := bankPlace_lt hcfg hlines hdcol hdrow
      omega
  obtain ⟨hcol, hhalf⟩ := bankPlace_inj hccol hdcol hplace
  have hrow : c.row = d.row := by omega
  cases c
  cases d
  exact congrArg₂ Cursor.mk hrow hcol

end Sys2Proof.Machine

namespace Sys2Proof.Proofs

open Sys2Proof.Machine

/-- Settles O28: on the display by `calcAddr_inj`; the parked addresses by the addresses of the rows. -/
theorem positionsHaveDistinctAddresses : Obligations.PositionsHaveDistinctAddresses := by
  unfold Obligations.PositionsHaveDistinctAddresses
  refine ⟨fun _ _ _ => calcAddr_inj, fun cfg _ => ?_⟩
  exact ⟨by simp, by simp⟩

/-- Settles O27, row by row. -/
theorem rowsAreLaidOut : Obligations.RowsAreLaidOut := by
  unfold Obligations.RowsAreLaidOut
  intro cfg c _ _
  exact ⟨calcAddr_row0 .., fun _ => calcAddr_row1 .., fun _ => calcAddr_row2 .., fun _ => calcAddr_row3 ..⟩

end Sys2Proof.Proofs
end

section
/-! The instruction bytes of the commands (30_encoding.md R80 to R83; 41_commands.md R120 to R129): NEWLINE and
CARRIAGE_RETURN write an address, and every other command only bytes that no cursor enters. -/

namespace Sys2Proof.Machine

/-- The instruction bytes of the commands that write no address: LCD_OP's own, and those of the configuration. -/
def fixedBytes (par : Params) (cfg : DisplayConfig) : List Byte :=
  par.lcdOp.functionSetSeq.map (functionSetEntryByte par cfg)
    ++ [configDisplayOn par cfg, par.lcdOp.clearDisplay, par.lcdOp.returnHome, par.lcdOp.entryModeInc,
      par.lcdOp.displayOff, par.lcdOp.cursorLeft]

section
variable {par : Params} {cfg : DisplayConfig} {cur : Cursor} {b : Byte}

theorem clearItems_fixedBytes (h : .write false b ∈ clearItems par) : b ∈ fixedBytes par cfg := by
  obtain rfl : b = par.lcdOp.clearDisplay := by simpa [clearItems] using h
  simp [fixedBytes]

theorem flashItems_fixedBytes (h : .write false b ∈ flashItems par cfg) : b ∈ fixedBytes par cfg := by
  obtain rfl | rfl : b = par.lcdOp.displayOff ∨ b = configDisplayOn par cfg := by
    simp only [flashItems, flashToggle, List.mem_append, or_self] at h
    simpa using h
  all_goals simp [fixedBytes]

theorem functionSetItems_fixedBytes (h : .write false b ∈ functionSetItems par cfg) : b ∈ fixedBytes par cfg := by
  obtain ⟨e, he, rfl⟩ : ∃ e ∈ par.lcdOp.functionSetSeq, b = functionSetEntryByte par cfg e := by
    simpa [functionSetItems] using h
  exact List.mem_append_left _ (List.mem_map_of_mem he)

theorem controlItems_fixedBytes (h : .write false b ∈ controlItems par cfg) : b ∈ fixedBytes par cfg := by
  obtain rfl | rfl | rfl : b = par.lcdOp.displayOff ∨ b = configDisplayOn par cfg ∨ b = par.lcdOp.entryModeInc := by
    simpa [controlItems] using h
  all_goals simp [fixedBytes]

theorem expandReset_fixedBytes (h : .write false b ∈ (expandReset par cfg).items) : b ∈ fixedBytes par cfg := by
  simp only [expandReset, List.mem_append] at h
  obtain (h | h) | h := h
  · exact functionSetItems_fixedBytes h
  · exact controlItems_fixedBytes h
  · exact clearItems_fixedBytes h

theorem expandBackspace_fixedBytes (h : .write false b ∈ (expandBackspace par cfg cur).items) :
    b ∈ fixedBytes par cfg := by
  unfold expandBackspace at h
  split at h
  · obtain rfl : b = par.lcdOp.cursorLeft := by simpa using h
    simp [fixedBytes]
  · exact flashItems_fixedBytes h

theorem expandHome_fixedBytes (h : .write false b ∈ (expandHome par).items) : b ∈ fixedBytes par cfg := by
  obtain rfl : b = par.lcdOp.returnHome := by simpa [expandHome] using h
  simp [fixedBytes]

/-- CHAR writes data only (R128). -/
theorem expandChar_no_instructionByte (c : Byte) : .write false b ∉ (expandChar cfg cur c).items := by
  unfold expandChar
  split <;> simp

/-- What instruction bytes a command writes: an address by NEWLINE and CARRIAGE_RETURN, a fixed byte by any other. -/
theorem expand_instructionByte {i : Instr} (hi : i.isCommand = true) (h : .write false b ∈ (expand par cfg cur i).items) :
    b ∈ fixedBytes par cfg ∨ ((i = .nl ∨ i = .cr) ∧ b = addressByte par cfg (expand par cfg cur i).next) := by
  cases i with
  | reset => exact .inl (expandReset_fixedBytes h)
  | clear => exact .inl (clearItems_fixedBytes h)
  | bksp => exact .inl (expandBackspace_fixedBytes h)
  | nl => exact .inr ⟨.inl rfl, by simpa [expand, expandNewline] using h⟩
  | cr => exact .inr ⟨.inr rfl, by simpa [expand, expandReturn] using h⟩
  | home => exact .inl (expandHome_fixedBytes h)
  | tab => simp [expand, expandTab] at h
  | flash => exact .inl (flashItems_fixedBytes h)
  | char c => exact absurd h (expandChar_no_instructionByte c)
  | unk p => simp [expand, expandUnknown] at h
  | clearDisplay | returnHome | entryModeInc | displayOff | displayOn | cursorLeft | functionSet | setDdram => cases hi

end

theorem displayOnByte_bit7 : ∀ c k : Bool, (displayOnByte specParams c k).getLsbD 7 = false := by decide

theorem functionSetByte_bit7 : ∀ n f : Bool, (functionSetByte specParams n f).getLsbD 7 = false := by decide

/-- Bit 7 marks SET_DDRAM alone: no fixed byte of the default LCD_OP has it (R80; D9, D10, log 14). -/
theorem fixedBytes_bit7 {cfg : DisplayConfig} {b : Byte} (h : b ∈ fixedBytes specParams cfg) : b.getLsbD 7 = false := by
  obtain hfunctionSet | hcontrol := List.mem_append.mp h
  · obtain rfl : b = configFunctionSet specParams cfg := by
      simpa [specParams, specLcdOp, functionSetEntryByte] using hfunctionSet
    exact functionSetByte_bit7 _ _
  · simp only [List.mem_cons, List.not_mem_nil, or_false] at hcontrol
    obtain rfl | rfl | rfl | rfl | rfl | rfl := hcontrol
    · exact displayOnByte_bit7 _ _
    all_goals rfl

end Sys2Proof.Machine

namespace Sys2Proof.Proofs

open Sys2Proof.Machine

/-- Settles O25: the address write is the whole expansion of NEWLINE and CARRIAGE_RETURN, and the bytes of the other
commands have bit 7 clear (`expand_instructionByte`, `fixedBytes_bit7`). -/
theorem addressIsComputedAndWritten : Obligations.AddressIsComputedAndWritten := by
  unfold Obligations.AddressIsComputedAndWritten
  refine ⟨fun _ _ => rfl, fun _ _ => rfl, fun cfg cur i hi => ?_, fun cfg cur i b hi hwrite hbit => ?_⟩
  · obtain rfl | rfl : i = .nl ∨ i = .cr := by simpa using hi
    all_goals rfl
  · obtain hfixed | ⟨haddress, -⟩ := expand_instructionByte hi hwrite
    · exact absurd ((fixedBytes_bit7 hfixed).symm.trans hbit) Bool.false_ne_true
    · exact haddress

end Sys2Proof.Proofs
end

section
/-! The nibble order (20_memory.md R59): what a nibble drives onto bound data lines, and the bits of the two nibbles. -/

namespace Sys2Proof.Machine

/-- SET on a bound role is the one SET of its line (R102). -/
theorem setRole_of_bound {pins : PinMap} {r : Role} {p : Line} (h : lineOf pins r = some p) (v : Bool) :
    setRole pins r v = [.setPin p v] := by
  simp [setRole, h]

/-- Bit 3 of a nibble goes to DAT3, down to bit 0 to DAT0, in that order. -/
theorem driveNibble_of_bound {pins : PinMap} {d : Line} (h : pins.dat0 = some d) (n : Nibble) :
    driveNibble pins n
      = [.setPin (d + 3) (n.getLsbD 3), .setPin (d + 2) (n.getLsbD 2), .setPin (d + 1) (n.getLsbD 1),
          .setPin d (n.getLsbD 0)] := by
  have hdat3 : lineOf pins .dat3 = some (d + 3) := by simp [lineOf, h]
  have hdat2 : lineOf pins .dat2 = some (d + 2) := by simp [lineOf, h]
  have hdat1 : lineOf pins .dat1 = some (d + 1) := by simp [lineOf, h]
  have hdat0 : lineOf pins .dat0 = some d := h
  simp only [driveNibble, setRole_of_bound hdat3, setRole_of_bound hdat2, setRole_of_bound hdat1,
    setRole_of_bound hdat0, List.cons_append, List.nil_append]

theorem upperNibble_getLsbD (b : Byte) {i : Nat} (hi : i < 4) : (upperNibble b).getLsbD i = b.getLsbD (4 + i) := by
  simp [upperNibble, hi]

theorem lowerNibble_getLsbD (b : Byte) {i : Nat} (hi : i < 4) : (lowerNibble b).getLsbD i = b.getLsbD i := by
  simp [lowerNibble, hi]

end Sys2Proof.Machine

namespace Sys2Proof.Proofs

open Sys2Proof.Machine

/-- Settles O37: the lines of a nibble (`driveNibble_of_bound`) with the bits of each half of the byte. -/
theorem nibblesCrossUpperFirst : Obligations.NibblesCrossUpperFirst := by
  unfold Obligations.NibblesCrossUpperFirst
  intro par pins rs b d hdat
  refine ⟨?_, ?_, rfl⟩
  · simp only [driveNibble_of_bound hdat, upperNibble_getLsbD, Nat.reduceLT, Nat.reduceAdd]
  · simp only [driveNibble_of_bound hdat, lowerNibble_getLsbD, Nat.reduceLT]

end Sys2Proof.Proofs
end

section
/-! The two formats of the opcode table (30_encoding.md R70 to R76, R80 to R87): the encoder and the decoder undo each
other, format by format. A command word is a kind bit above its payload, and SET_DDRAM a set bit above its address, so
both are read with the library's lemmas on `BitVec.cons`. -/

namespace Sys2Proof.Machine

/-! ### Command words -/

/-- A command word is its kind bit above its payload (R70). -/
theorem packCommand_eq_cons (k : Bool) (p : Byte) : packCommand k p = BitVec.cons k p := rfl

@[simp] theorem cwKind_packCommand (k : Bool) (p : Byte) : cwKind (packCommand k p) = k :=
  BitVec.msb_cons

@[simp] theorem cwPayload_packCommand (k : Bool) (p : Byte) : cwPayload (packCommand k p) = p :=
  BitVec.setWidth_cons

theorem packCommand_kind_payload (w : CommandWord) : packCommand (cwKind w) (cwPayload w) = w :=
  BitVec.cons_msb_setWidth w

theorem decodeControl_unrecognised {p : Byte} (h : 8 ≤ p.toNat) : decodeControl p = .unk p := by
  unfold decodeControl
  split
  case h_9 => rfl
  all_goals omega

/-- The exact codes are read first, so an UNKNOWN that is read has a code of its own (R72, R87). -/
theorem decodeControl_wellFormed (p : Byte) : (decodeControl p).wellFormed = true := by
  unfold decodeControl
  split
  case h_9 =>
    simp only [imp_false] at *
    have hp : 8 ≤ p.toNat := by omega
    exact decide_eq_true hp
  all_goals rfl

/-- The eight exact codes and the rest are told apart by the code they carry (R72). -/
theorem encode_decodeControl (p : Byte) : encode (decodeControl p) = .cw9 (packCommand true p) := by
  have hp : p = BitVec.ofNat 8 p.toNat := by simp
  unfold decodeControl
  split
  case h_9 => rfl
  all_goals
    next hcode =>
      rw [hcode] at hp
      subst hp
      rfl

theorem decodeCommand_wellFormed (w : CommandWord) : (decodeCommand w).wellFormed = true := by
  unfold decodeCommand
  split
  · exact decodeControl_wellFormed _
  · rfl

/-- Decoding of a command word loses no bit (R74). -/
theorem encode_decodeCommand (w : CommandWord) : encode (decodeCommand w) = .cw9 w := by
  have hw := packCommand_kind_payload w
  unfold decodeCommand
  split
  · next hkind => rw [encode_decodeControl, ← hkind, hw]
  · next hkind => rw [encode, ← Bool.eq_false_iff.mpr hkind, hw]

theorem decodeCommand_of_encode {i : Instr} {w : CommandWord} (hi : i.wellFormed = true) (h : encode i = .cw9 w) :
    decodeCommand w = i := by
  cases i with
  | reset | clear | bksp | nl | cr | home | tab | flash =>
    cases h
    rfl
  | char c =>
    cases h
    simp [decodeCommand]
  | unk p =>
    cases h
    have hp : 8 ≤ p.toNat := of_decide_eq_true hi
    simp [decodeCommand, decodeControl_unrecognised hp]
  | clearDisplay | returnHome | entryModeInc | displayOff | displayOn | cursorLeft | functionSet | setDdram => cases h

/-! ### Emitted bytes -/

/-- SET_DDRAM is a set bit 7 above its address (R83). -/
theorem setDdram_eq_cons (a : BitVec 7) : 0x80#8 ||| a.setWidth 8 = BitVec.cons true a := by
  have ha : a.setWidth 8 = BitVec.cons false a := by
    apply BitVec.eq_of_toNat_eq
    simp [BitVec.toNat_cons]
    omega
  have hbit : (0x80#8) = BitVec.cons true 0#7 := rfl
  rw [ha, hbit, BitVec.cons_or_cons, BitVec.zero_or, Bool.true_or]

/-- A flag of an operand byte is that bit of the byte, the others masked out (R81, R82). -/
theorem bitAt_getLsbD (b : Byte) (i : Nat) : bitAt (b.getLsbD i) i = b &&& BitVec.twoPow 8 i := by
  rw [BitVec.and_twoPow, BitVec.twoPow_eq]
  unfold bitAt
  cases b.getLsbD i <;> simp

/-- A byte that agrees with `base` under `mask` is `base` with the two bits `mask` leaves out. -/
theorem base_or_bits_eq {b base mask : Byte} {i j : Nat}
    (hmask : mask ||| BitVec.twoPow 8 i ||| BitVec.twoPow 8 j = BitVec.allOnes 8) (h : b &&& mask = base) :
    base ||| bitAt (b.getLsbD i) i ||| bitAt (b.getLsbD j) j = b := by
  rw [bitAt_getLsbD, bitAt_getLsbD, ← h, ← BitVec.and_or_distrib_left, ← BitVec.and_or_distrib_left, hmask,
    BitVec.and_allOnes]

/-- A byte is read by a row that encodes to it: its fixed bits are the row's, its operand bits the operands (R80). -/
theorem encode_of_decodeController {i : Instr} {b : Byte} (h : decodeController b = .ok i) : encode i = .lcd8 b := by
  unfold decodeController at h
  split at h
  · next hbit =>
    cases h
    have hmsb : b.msb = true := hbit
    rw [encode, setDdram_eq_cons, ← hmsb, BitVec.cons_msb_setWidth]
  · split at h
    · next hmask =>
      cases h
      exact congrArg Encoded.lcd8 (base_or_bits_eq (by decide) hmask)
    · split at h
      · next hmask =>
        cases h
        exact congrArg Encoded.lcd8 (base_or_bits_eq (by decide) hmask)
      · split_ifs at h
        all_goals
          cases h
          subst b
          rfl

/-- No two rows of format `lcd8` share a byte: the row that encodes to it is the one that reads it. -/
theorem decodeController_of_encode {i : Instr} {b : Byte} (h : encode i = .lcd8 b) : decodeController b = .ok i := by
  cases i with
  | reset | clear | bksp | nl | cr | home | tab | flash | char | unk => cases h
  | clearDisplay | returnHome | entryModeInc | displayOff | cursorLeft =>
    cases h
    rfl
  | displayOn c k =>
    cases h
    cases c <;> cases k <;> rfl
  | functionSet n f =>
    cases h
    cases n <;> cases f <;> rfl
  | setDdram a =>
    cases h
    have hbit : (BitVec.cons true a).getLsbD 7 = true := BitVec.msb_cons
    have haddr : (BitVec.cons true a).setWidth 7 = a := BitVec.setWidth_cons
    rw [setDdram_eq_cons, decodeController, if_pos hbit, haddr]

/-- Only the emitted bytes are encoded in format `lcd8` (R87). -/
theorem isCommand_eq_false_iff {i : Instr} : i.isCommand = false ↔ ∃ b, encode i = .lcd8 b := by
  cases i with
  | reset | clear | bksp | nl | cr | home | tab | flash | char | unk => simp [Instr.isCommand, encode]
  | clearDisplay | returnHome | entryModeInc | displayOff | displayOn | cursorLeft | functionSet | setDdram =>
    exact iff_of_true rfl ⟨_, rfl⟩

theorem decodeController_error {b : Byte} {e : DecodeError} (h : decodeController b = .error e) :
    e = .neverEmitted b := by
  unfold decodeController at h
  split_ifs at h
  cases h
  rfl

theorem decode_encode {i : Instr} (hi : i.wellFormed = true) : decode (encode i) = .ok i := by
  cases h : encode i with
  | cw9 w => exact congrArg Except.ok (decodeCommand_of_encode hi h)
  | lcd8 b => exact decodeController_of_encode h

end Sys2Proof.Machine

namespace Sys2Proof.Proofs

open Sys2Proof.Machine

/-- Settles O2, format by format (`decode_encode`). -/
theorem decodeOfEncodeIsTheInstruction : Obligations.DecodeOfEncodeIsTheInstruction := by
  unfold Obligations.DecodeOfEncodeIsTheInstruction
  exact fun _ => decode_encode

/-- Settles O1: closed words, decoded. -/
theorem tabulatedWordsDecode : Obligations.TabulatedWordsDecode := by
  unfold Obligations.TabulatedWordsDecode
  decide

/-- Settles O3: what `decodeCommand` answers, and that its bits come back (`encode_decodeCommand`). -/
theorem everyCommandWordIsACommand : Obligations.EveryCommandWordIsACommand := by
  unfold Obligations.EveryCommandWordIsACommand
  exact fun w => ⟨decodeCommand_isCommand w, decodeCommand_wellFormed w, encode_decodeCommand w⟩

/-- Settles O4: the encoder and the decoder of the emitted bytes undo each other, so a byte that is rejected encodes
nothing. -/
theorem controllerBytesAreReadExactly : Obligations.ControllerBytesAreReadExactly := by
  unfold Obligations.ControllerBytesAreReadExactly
  refine fun b => ⟨fun i hread => ?_, fun e hrejected => ⟨decodeController_error hrejected, fun i hi => ?_⟩⟩
  · have hi := encode_of_decodeController hread
    exact ⟨isCommand_eq_false_iff.mpr ⟨b, hi⟩, hi⟩
  · cases (decodeController_of_encode hi).symm.trans hrejected

end Sys2Proof.Proofs
end

section
/-! The bytes an expansion writes, and the issue of an emitted byte (30_encoding.md R80 to R87): under the default
LCD_OP (D9, D10, log 14) an instruction byte is the encoding of a row of format `lcd8`; a data byte comes from CHAR or
TAB. -/

namespace Sys2Proof.Machine

/-! ### The issue of an emitted byte -/

/-- exec on an emitted byte issues the one WRITE its expansion holds (R80, log 7). -/
theorem exec_controller_expand {i : Instr} (h : i.isCommand = false) (s : State) :
    ∃ b, (expand s.par s.cfg s.cur i).items = [.write false b] ∧ exec i s = issueInstruction s b := by
  cases i with
  | reset | clear | bksp | nl | cr | home | tab | flash | char | unk => cases h
  | clearDisplay | returnHome | entryModeInc | displayOff | displayOn | cursorLeft | functionSet | setDdram =>
    exact ⟨_, rfl, rfl⟩

/-- Where the sequencer runs, the issue of a byte appends the expansion of its WRITE and changes nothing else (R106). -/
theorem issueInstruction_write {s : State} (h : s.mode = .init ∨ s.mode = .busy) (b : Byte) :
    issueInstruction s b = .next { s with seq := s.seq ++ itemsMicros s.par s.pins [.write false b] } := by
  have hmicros : itemsMicros s.par s.pins [.write false b] = writeMicros s.par s.pins false b := List.append_nil _
  rw [hmicros]
  exact issueInstruction_running s b h

section
variable {par : Params} {cfg : DisplayConfig} {cur : Cursor} {b : Byte}

/-! ### Instruction bytes under the default table -/

/-- Under the default LCD_OP the WRITE of an emitted byte writes its encoding (R80 to R83). -/
theorem expand_of_encode {i : Instr} (hop : par.lcdOp = specLcdOp) (h : encode i = .lcd8 b) :
    (expand par cfg cur i).items = [.write false b] := by
  cases i with
  | reset | clear | bksp | nl | cr | home | tab | flash | char | unk => cases h
  | clearDisplay | returnHome | entryModeInc | displayOff | displayOn | cursorLeft | functionSet | setDdram =>
    cases h
    simp only [expand, displayOnByte, functionSetByte, setDdramByte, hop]
    rfl

/-- Under the default LCD_OP exec on an emitted byte issues its encoding. -/
theorem exec_of_encode {s : State} {i : Instr} (hop : s.par.lcdOp = specLcdOp) (h : encode i = .lcd8 b) :
    exec i s = issueInstruction s b := by
  obtain ⟨b', hitems, hexec⟩ := exec_controller_expand (isCommand_eq_false_iff.mpr ⟨b, h⟩) s
  rw [expand_of_encode hop h] at hitems
  cases hitems
  exact hexec

theorem encode_displayOn (c k : Bool) : encode (.displayOn c k) = .lcd8 (displayOnByte specParams c k) := rfl

theorem encode_functionSet (n f : Bool) : encode (.functionSet n f) = .lcd8 (functionSetByte specParams n f) := rfl

theorem encode_setDdram (cfg : DisplayConfig) (c : Cursor) :
    encode (.setDdram (BitVec.ofNat 7 (calcAddr specParams cfg c))) = .lcd8 (addressByte specParams cfg c) := rfl

/-- Every fixed byte of the default LCD_OP is a row of the opcode table (R80; D9, D10, log 14). -/
theorem fixedBytes_encoded (h : b ∈ fixedBytes specParams cfg) : ∃ j, encode j = .lcd8 b := by
  obtain hfunctionSet | hcontrol := List.mem_append.mp h
  · obtain rfl : b = configFunctionSet specParams cfg := by
      simpa [specParams, specLcdOp, functionSetEntryByte] using hfunctionSet
    exact ⟨_, encode_functionSet _ _⟩
  · simp only [List.mem_cons, List.not_mem_nil, or_false] at hcontrol
    obtain rfl | rfl | rfl | rfl | rfl | rfl := hcontrol
    · exact ⟨_, encode_displayOn _ _⟩
    · exact ⟨.clearDisplay, rfl⟩
    · exact ⟨.returnHome, rfl⟩
    · exact ⟨.entryModeInc, rfl⟩
    · exact ⟨.displayOff, rfl⟩
    · exact ⟨.cursorLeft, rfl⟩

/-- Under the default LCD_OP every instruction byte is a row of the opcode table: a command's is a fixed byte or an
address, an emitted instruction's is its own. -/
theorem expand_instructionByte_encoded {i : Instr} (h : .write false b ∈ (expand specParams cfg cur i).items) :
    ∃ j, encode j = .lcd8 b := by
  cases hi : i.isCommand with
  | true =>
    obtain hfixed | ⟨-, rfl⟩ := expand_instructionByte hi h
    · exact fixedBytes_encoded hfixed
    · exact ⟨_, encode_setDdram _ _⟩
  | false =>
    obtain ⟨b', hencode⟩ := isCommand_eq_false_iff.mp hi
    rw [expand_of_encode rfl hencode] at h
    cases List.mem_singleton.mp h
    exact ⟨i, hencode⟩

/-! ### Data bytes -/

theorem flashItems_no_dataByte : .write true b ∉ flashItems par cfg := by
  simp [flashItems, flashToggle]

theorem expandReset_no_dataByte : .write true b ∉ (expandReset par cfg).items := by
  intro h
  obtain ⟨_, hwrite⟩ | ⟨_, hwait⟩ := expandReset_items h
  · cases hwrite
  · cases hwait

theorem expandBackspace_no_dataByte : .write true b ∉ (expandBackspace par cfg cur).items := by
  unfold expandBackspace
  split
  · simp
  · exact flashItems_no_dataByte

/-- TAB writes spaces only (R126). -/
theorem expandTab_item {it : Item} (h : it ∈ (expandTab par cfg cur).items) : it = .write true par.space :=
  List.eq_of_mem_replicate h

theorem expandChar_items {c : Byte} (h : cur.col < cfg.cols) : (expandChar cfg cur c).items = [.write true c] := by
  simp [expandChar, h]

theorem expandChar_dataByte {c : Byte} (h : .write true b ∈ (expandChar cfg cur c).items) : c = b := by
  unfold expandChar at h
  split at h
  · cases List.mem_singleton.mp h
    rfl
  · cases h

/-- What data bytes an instruction writes: its own code by CHAR, spaces by TAB, none by any other (R84). -/
theorem expand_dataByte {i : Instr} (h : .write true b ∈ (expand par cfg cur i).items) :
    i = .char b ∨ (i = .tab ∧ b = par.space) := by
  cases i with
  | reset => exact absurd h expandReset_no_dataByte
  | bksp => exact absurd h expandBackspace_no_dataByte
  | flash => exact absurd h flashItems_no_dataByte
  | char c => exact .inl (congrArg Instr.char (expandChar_dataByte h))
  | tab =>
    cases expandTab_item h
    exact .inr ⟨rfl, rfl⟩
  | clear | nl | cr | home | unk =>
    simp [expand, expandClear, clearItems, expandNewline, expandReturn, expandHome, expandUnknown] at h
  | clearDisplay | returnHome | entryModeInc | displayOff | displayOn | cursorLeft | functionSet | setDdram =>
    simp [expand] at h

end

/-! ### The address byte -/

/-- The largest address is that of the park: column 40 of the second bank, on two lines of 40 and on four of 20
(R8, R53). -/
theorem calcAddr_le {cfg : DisplayConfig} {c : Cursor} (hcfg : configValid specParams cfg = true)
    (hcur : cursorInRange cfg c = true) : calcAddr specParams cfg c ≤ 0x68 := by
  obtain ⟨hlines, -, hcapacity, -⟩ := configValid_iff.mp hcfg
  obtain ⟨hcol, hrow⟩ := cursorInRange_iff.mp hcur
  change cfg.lines * cfg.cols ≤ 80 at hcapacity
  change c.col + (if c.row = 1 ∨ c.row = 3 then 0x40 else 0) + (if c.row = 2 ∨ c.row = 3 then cfg.cols else 0) ≤ 0x68
  obtain h | h | h := hlines
  all_goals
    rw [h] at hcapacity hrow
    split_ifs <;> omega

/-- Under the default LCD_OP the address byte is a set bit 7 above the 7-bit address (R83). -/
theorem addressByte_eq_cons (cfg : DisplayConfig) (c : Cursor) :
    addressByte specParams cfg c = BitVec.cons true (BitVec.ofNat 7 (calcAddr specParams cfg c)) :=
  setDdram_eq_cons _

end Sys2Proof.Machine

namespace Sys2Proof.Proofs

open Sys2Proof.Machine

/-- Settles O20: each meaning is the issue of its byte, which `issueInstruction_write` says. -/
theorem issuedBytesJoinTheSequence : Obligations.IssuedBytesJoinTheSequence := by
  unfold Obligations.IssuedBytesJoinTheSequence
  intro s hmode
  have hissue := issueInstruction_write hmode
  exact ⟨hissue _, hissue _, hissue _, hissue _, fun _ _ => hissue _, hissue _, fun _ _ => hissue _, fun _ => hissue _⟩

/-- Settles O21: the byte issued is the encoding (`exec_of_encode`). -/
theorem issuedByteIsItsTableByte : Obligations.IssuedByteIsItsTableByte := by
  unfold Obligations.IssuedByteIsItsTableByte
  intro s i b hmode hop hencode
  rw [exec_of_encode hop hencode]
  exact issueInstruction_running s b hmode

/-- Settles O23: the byte encodes an instruction, and the decoder reads it back. -/
theorem onlyTabulatedBytesAreWritten : Obligations.OnlyTabulatedBytesAreWritten := by
  unfold Obligations.OnlyTabulatedBytesAreWritten
  intro cfg cur i b hwrite
  obtain ⟨j, hj⟩ := expand_instructionByte_encoded hwrite
  exact ⟨j, isCommand_eq_false_iff.mpr ⟨b, hj⟩, decodeController_of_encode hj, hj⟩

/-- Settles O24: the data bytes of every instruction by `expand_dataByte`, and the items of CHAR and TAB. -/
theorem onlyCharAndTabWriteData : Obligations.OnlyCharAndTabWriteData := by
  unfold Obligations.OnlyCharAndTabWriteData
  exact ⟨fun _ _ _ _ _ => expand_dataByte, rfl, fun _ _ _ _ => expandChar_items, fun _ _ _ _ => expandTab_item⟩

/-- Settles O26: the address is at most 0x68 (`calcAddr_le`), so seven bits hold it under bit 7. -/
theorem addressByteHoldsTheAddress : Obligations.AddressByteHoldsTheAddress := by
  unfold Obligations.AddressByteHoldsTheAddress
  intro cfg c hcfg hcur
  have hle := calcAddr_le hcfg hcur
  have hlt : calcAddr specParams cfg c < 2 ^ 7 := by omega
  have hbyte := addressByte_eq_cons cfg c
  refine ⟨hle, ?_, ?_, ?_⟩
  · have hwide := BitVec.setWidth_ofNat_of_le_of_lt (v := 8) (by decide) hlt
    exact congrArg (0x80#8 ||| ·) hwide
  · rw [hbyte]
    exact BitVec.msb_cons
  · rw [hbyte, BitVec.setWidth_cons, BitVec.toNat_ofNat, Nat.mod_eq_of_lt hlt]

end Sys2Proof.Proofs
end

section
/-! The micro-operations by the device's answer (40_transport.md R100 to R104): the whole next state of each, said once,
and from it a step of the sequencer that performs one (R105) or ends in fatal entry (60_exceptions.md R174). -/

namespace Sys2Proof.Machine

/-! ### A request of the device -/

/-- A request is its event and the answer used up (R171, R172). -/
theorem emit_dropAnswer (s : State) (e : Event) :
    (s.emit e).dropAnswer = { s.dropAnswer with trace := s.trace ++ [e] } := by
  unfold State.dropAnswer State.emit
  cases s.answers <;> rfl

/-- The answer does not depend on the list the sequencer holds. -/
@[simp] theorem nextAnswer_setSeq (s : State) (q : List Micro) : (s.setSeq q).nextAnswer = s.nextAnswer := rfl

theorem dropAnswer_setSeq (s : State) (q : List Micro) : (s.setSeq q).dropAnswer = { s.dropAnswer with seq := q } := by
  unfold State.dropAnswer State.setSeq
  cases s.answers <;> rfl

/-- Fatal entry as a whole next state (R174, D27). -/
theorem raiseFatal_eq (f : FatalInfo) (s : State) :
    raiseFatal f s
      = { s with trace := s.trace ++ .fatal f :: (if s.held then [.release] else []), held := false, seq := []
                 fatalInfo := some f, mode := .fatal } := by
  cases h : s.held <;> simp [raiseFatal, releaseIfHeld, State.emit, State.setHeld, h]

section
variable {s : State}

theorem perform_openDev_ok (dev : Device) (h : s.nextAnswer = .ok) :
    perform (.openDev dev) s = { s.dropAnswer with trace := s.trace ++ [.openDev dev], held := true } := by
  simp only [perform, performOpen, nextAnswer_emit, h, emit_dropAnswer, State.setHeld]

theorem perform_openDev_fail (dev : Device) (h : s.nextAnswer = .fail) :
    perform (.openDev dev) s
      = raiseFatal (.openError dev) { s.dropAnswer with trace := s.trace ++ [.openDev dev] } := by
  simp only [perform, performOpen, nextAnswer_emit, h, emit_dropAnswer]

theorem perform_cfgPin_ok (p : Line) (h : s.nextAnswer = .ok) :
    perform (.cfgPin p) s = { s.dropAnswer with trace := s.trace ++ [.cfgPin p] } := by
  simp only [perform, performCfg, nextAnswer_emit, h, emit_dropAnswer]

theorem perform_cfgPin_fail (p : Line) (h : s.nextAnswer = .fail) :
    perform (.cfgPin p) s = raiseFatal (.configError p) { s.dropAnswer with trace := s.trace ++ [.cfgPin p] } := by
  simp only [perform, performCfg, nextAnswer_emit, h, emit_dropAnswer]

theorem perform_setPin_ok (p : Line) (v : Bool) (h : s.nextAnswer = .ok) :
    perform (.setPin p v) s
      = { s.dropAnswer with trace := s.trace ++ [.setPin p v], out := putLine s.out p v } := by
  simp only [perform, performSet, nextAnswer_emit, h, emit_dropAnswer, State.driveLine, dropAnswer_out]

theorem perform_setPin_fail (p : Line) (v : Bool) (h : s.nextAnswer = .fail) :
    perform (.setPin p v) s
      = { s.dropAnswer with trace := s.trace ++ [.setPin p v, .warn (.transientIo p v)], out := dropLine s.out p } := by
  simp only [perform, performSet, nextAnswer_emit, h, emit_dropAnswer, State.loseLine, dropAnswer_out, raiseWarning]
  simp only [State.emit, List.append_assoc, List.cons_append, List.nil_append]

end

/-- A CFG leaves every level (R100). -/
theorem perform_cfgPin_out (p : Line) (s : State) : (perform (.cfgPin p) s).out = s.out := by
  obtain h | ⟨q, v, hset, -⟩ := perform_out (.cfgPin p) s
  · exact h
  · cases hset

/-- A SET leaves every other line alone (R101). -/
theorem perform_setPin_readLine_other (p : Line) (v : Bool) (s : State) {q : Line} (hq : q ≠ p) :
    readLine (perform (.setPin p v) s).out q = readLine s.out q := by
  cases h : s.nextAnswer with
  | ok =>
    rw [perform_setPin_ok p v h]
    exact readLine_putLine_other s.out v hq
  | fail =>
    rw [perform_setPin_fail p v h]
    exact readLine_dropLine_other s.out hq

/-- A SET keeps the level store canonical (log 10). -/
theorem perform_setPin_canonical (p : Line) (v : Bool) {s : State} (hs : linesCanonical s.out) :
    linesCanonical (perform (.setPin p v) s).out := by
  cases h : s.nextAnswer with
  | ok =>
    rw [perform_setPin_ok p v h]
    exact putLine_canonical p v hs
  | fail =>
    rw [perform_setPin_fail p v h]
    exact dropLine_canonical p hs

/-! ### The sequencer's step -/

/-- What the end of a step does, by what is left of the list and the mode (R105, R150). -/
theorem finishIfEmpty_eq (s : State) :
    finishIfEmpty s = if s.seq = [] ∧ s.mode = .busy then { s with cur := s.curNext, mode := .idle }
      else if s.seq = [] ∧ s.mode = .init then { s with cur := cursorHome, mode := .idle } else s := by
  by_cases hseq : s.seq = []
  · cases hmode : s.mode <;> simp [finishIfEmpty, finishSequence, hseq, hmode]
  · rw [finishIfEmpty_of_ne hseq, if_neg (mt And.left hseq), if_neg (mt And.left hseq)]

/-- A head that takes fatal entry ends its step there: nothing of the list is left to run (R174, R175). -/
theorem step_of_raiseFatal {s u : State} {m : Micro} {rest : List Micro} {f : FatalInfo} (hfree : Undisturbed s)
    (hmode : s.mode = .init) (hseq : s.seq = m :: rest) (h : perform m (s.setSeq rest) = raiseFatal f u) :
    step s = .next (raiseFatal f u) := by
  rw [step_running hfree (.inl hmode), runSequencer_cons hseq, h, finishIfEmpty_fatal rfl]

/-! ### Unbound roles, and the micro-operations of a WRITE -/

theorem setRole_of_unbound {pins : PinMap} {r : Role} (h : lineOf pins r = none) (v : Bool) :
    setRole pins r v = [] := by
  simp [setRole, h]

theorem cfgRole_of_unbound {pins : PinMap} {r : Role} (h : lineOf pins r = none) : cfgRole pins r = [] := by
  simp [cfgRole, h]

/-- A valid pin map leaves only R/W and BL unbound (R22, R23, D7). -/
theorem unbound_of_valid {par : Params} {pins : PinMap} {r : Role} (hvalid : pinMapValid par pins = true)
    (h : lineOf pins r = none) : r = .readWrite ∨ r = .backlight := by
  obtain ⟨hrs, he, hdat, -⟩ := pinMapValid_bound hvalid
  cases r with
  | regSel => exact absurd h hrs
  | enable => exact absurd h he
  | dat0 => exact absurd h hdat
  | dat1 | dat2 | dat3 => exact absurd (Option.map_eq_none_iff.mp h) hdat
  | readWrite => exact .inl rfl
  | backlight => exact .inr rfl

/-- A WRITE with RS, E and the data lines bound: the R/W step where R/W is bound, then nineteen more (R106, R107). -/
theorem writeMicros_of_bound {par : Params} {pins : PinMap} (rs : Bool) (b : Byte) {r e d : Line}
    (hrs : pins.regSel = some r) (he : pins.enable = some e) (hdat : pins.dat0 = some d) :
    writeMicros par pins rs b
      = setRole pins .readWrite false
        ++ [Micro.setPin r rs,
          .setPin (d + 3) (b.getLsbD 7), .setPin (d + 2) (b.getLsbD 6), .setPin (d + 1) (b.getLsbD 5),
          .setPin d (b.getLsbD 4),
          .wait par.timing.setup, .setPin e true, .wait par.timing.strobe, .setPin e false, .wait par.timing.hold,
          .setPin (d + 3) (b.getLsbD 3), .setPin (d + 2) (b.getLsbD 2), .setPin (d + 1) (b.getLsbD 1),
          .setPin d (b.getLsbD 0),
          .wait par.timing.setup, .setPin e true, .wait par.timing.strobe, .setPin e false, .wait par.timing.hold] := by
  have hselect : setRole pins .regSel rs = [.setPin r rs] := setRole_of_bound (r := .regSel) hrs rs
  have hstrobe : strobe par pins = [.setPin e true, .wait par.timing.strobe, .setPin e false] := by
    simp only [strobe, setRole_of_bound (r := .enable) he, List.cons_append, List.nil_append]
  simp only [writeMicros, sendNibble, hselect, hstrobe, driveNibble_of_bound hdat, upperNibble_getLsbD,
    lowerNibble_getLsbD, Nat.reduceLT, Nat.reduceAdd, List.append_assoc, List.cons_append, List.nil_append]

end Sys2Proof.Machine

namespace Sys2Proof.Proofs

open Sys2Proof.Machine

/-- Settles O7: the step is the head performed and `finishIfEmpty_eq`; `perform_lifecycle` says what is left. -/
theorem sequencerPerformsTheHead : Obligations.SequencerPerformsTheHead := by
  unfold Obligations.SequencerPerformsTheHead
  intro s m rest hfree hmode hseq
  refine ⟨?_, ?_⟩
  · rw [step_running hfree hmode, runSequencer_cons hseq, finishIfEmpty_eq]
  · obtain ⟨hmode', hseq'⟩ | ⟨hmode', hseq'⟩ := perform_lifecycle m (s.setSeq rest)
    · exact .inl ⟨hseq', hmode'⟩
    · exact .inr ⟨hseq', hmode'⟩

/-- Settles O32: the two answers (`perform_setPin_ok`, `perform_setPin_fail`), the driven line read back, the others and
the canonical store by the laws of the level store. -/
theorem setDrivesItsLine : Obligations.SetDrivesItsLine := by
  unfold Obligations.SetDrivesItsLine
  intro s p v hcanonical
  refine ⟨fun hok => ?_, fun hfail => ?_, fun q hq => perform_setPin_readLine_other p v s hq,
    perform_setPin_canonical p v hcanonical⟩
  · rw [perform_setPin_ok p v hok]
    exact ⟨rfl, readLine_putLine_same s.out p v⟩
  · rw [perform_setPin_fail p v hfail]
    exact ⟨rfl, readLine_dropLine_same p hcanonical⟩

/-- Settles O33: CFG by its answer, and the answer by what is scripted. -/
theorem cfgAsksTheDevice : Obligations.CfgAsksTheDevice := by
  unfold Obligations.CfgAsksTheDevice
  refine ⟨fun s p => ⟨perform_cfgPin_ok p, perform_cfgPin_fail p, perform_cfgPin_out p s⟩, fun s => ⟨?_, ?_⟩⟩
  · intro a as hscripted
    exact ⟨nextAnswer_cons s a as hscripted, dropAnswer_answers_cons s a as hscripted⟩
  · intro hfree
    simp only [State.nextAnswer, State.dropAnswer, hfree, and_self]

/-- Settles O34: OPEN by its answer; RELEASE asks for none. -/
theorem openAndReleaseOwnTheDevice : Obligations.OpenAndReleaseOwnTheDevice := by
  unfold Obligations.OpenAndReleaseOwnTheDevice
  exact fun s dev => ⟨perform_openDev_ok dev, perform_openDev_fail dev, rfl⟩

/-- Settles O35: WAIT and WARN are the emission of their event. -/
theorem waitAndWarnOnlyEmit : Obligations.WaitAndWarnOnlyEmit := by
  unfold Obligations.WaitAndWarnOnlyEmit
  exact ⟨fun _ _ _ => ⟨rfl, rfl, rfl⟩, fun _ _ => rfl, fun _ => rfl⟩

/-- Settles O36: `setRole` and `cfgRole` of an unbound role, and what `pinMapValid` binds (`unbound_of_valid`). -/
theorem unboundRolesAreNotDriven : Obligations.UnboundRolesAreNotDriven := by
  unfold Obligations.UnboundRolesAreNotDriven
  exact ⟨fun _ _ v hr => ⟨setRole_of_unbound hr v, cfgRole_of_unbound hr⟩, fun _ _ _ => unbound_of_valid⟩

/-- Settles O38: the steps on RS, E and the data lines (`writeMicros_of_bound`), and R/W set or, unbound, left out. -/
theorem writeIsItsSixSteps : Obligations.WriteIsItsSixSteps := by
  unfold Obligations.WriteIsItsSixSteps
  intro par pins rs b r e d hrs he hdat
  rw [writeMicros_of_bound rs b hrs he hdat]
  cases hread : pins.readWrite with
  | some w => rw [setRole_of_bound (r := .readWrite) hread]
  | none => rw [setRole_of_unbound (r := .readWrite) hread]

/-- Settles O46: a refused OPEN or CFG takes fatal entry (`raiseFatal_eq`), and its step ends there. -/
theorem setupFailureIsFatal : Obligations.SetupFailureIsFatal := by
  unfold Obligations.SetupFailureIsFatal
  intro s rest hfree hmode hanswer
  refine ⟨fun dev hheld hseq => ?_, fun p hheld hseq => ?_⟩
  · have hfail : perform (.openDev dev) (s.setSeq rest) = raiseFatal (.openError dev) _ :=
      perform_openDev_fail dev hanswer
    rw [step_of_raiseFatal hfree hmode hseq hfail, raiseFatal_eq]
    simp [dropAnswer_setSeq, hheld]
  · have hfail : perform (.cfgPin p) (s.setSeq rest) = raiseFatal (.configError p) _ :=
      perform_cfgPin_fail p hanswer
    rw [step_of_raiseFatal hfree hmode hseq hfail, raiseFatal_eq]
    simp [dropAnswer_setSeq, hheld]

end Sys2Proof.Proofs
end

section
/-! The events of a run (10_state.md R33; 60_exceptions.md R172): what a list of SETs, WAITs and WARNs adds to the trace
over every way the device can answer, and that the sequencer's steps add just that. -/

namespace Sys2Proof.Machine

/-! ### What a list may emit -/

/-- The events of a SET: its own, and the warning directly after it where it failed (R101, R172). -/
def setEvents (p : Line) (v failed : Bool) : List Event :=
  .setPin p v :: if failed then [.warn (.transientIo p v)] else []

/-- What one quiet micro-operation may emit. -/
inductive MicroEmits : Micro → List Event → Prop where
  | set (p : Line) (v failed : Bool) : MicroEmits (.setPin p v) (setEvents p v failed)
  | wait (t : Micros) : MicroEmits (.wait t) [.wait t]
  | warn (w : WarnInfo) : MicroEmits (.warn w) [.warn w]

/-- What a list of quiet micro-operations may emit, in order. -/
inductive Emits : List Micro → List Event → Prop where
  | nil : Emits [] []
  | cons {m : Micro} {q : List Micro} {e evs : List Event} :
      MicroEmits m e → Emits q evs → Emits (m :: q) (e ++ evs)

theorem Emits.append_inv {q₁ q₂ : List Micro} {evs : List Event} (h : Emits (q₁ ++ q₂) evs) :
    ∃ a b, evs = a ++ b ∧ Emits q₁ a ∧ Emits q₂ b := by
  induction q₁ generalizing evs with
  | nil => exact ⟨[], evs, rfl, .nil, h⟩
  | cons m q ih =>
    cases h with
    | @cons _ _ e rest hm hrest =>
      obtain ⟨a, b, rfl, ha, hb⟩ := ih hrest
      exact ⟨e ++ a, b, by rw [List.append_assoc], .cons hm ha, hb⟩

theorem emits_set {p : Line} {v : Bool} {evs : List Event} (h : Emits [.setPin p v] evs) :
    ∃ failed, evs = setEvents p v failed := by
  cases h with
  | cons hm hnil =>
    cases hm with
    | set _ _ failed =>
      cases hnil
      exact ⟨failed, List.append_nil _⟩

theorem emits_wait {t : Micros} {evs : List Event} (h : Emits [.wait t] evs) : evs = [.wait t] := by
  cases h with
  | cons hm hnil =>
    cases hm
    cases hnil
    rfl

theorem emits_warn {w : WarnInfo} {evs : List Event} (h : Emits [.warn w] evs) : evs = [.warn w] := by
  cases h with
  | cons hm hnil =>
    cases hm
    cases hnil
    rfl

theorem hasTransientIo_setEvents (p : Line) (v failed : Bool) : hasTransientIo (setEvents p v failed) = failed := by
  cases failed <;> rfl

theorem pinEvents_setEvents (p : Line) (v failed : Bool) : pinEvents (setEvents p v failed) = [.setPin p v] := by
  cases failed <;> rfl

/-- The device's answers do not show in the pin events (R130). -/
theorem Emits.pinEvents_eq {q : List Micro} {evs : List Event} (h : Emits q evs) :
    pinEvents evs = q.flatMap microPinEvents := by
  induction h with
  | nil => rfl
  | cons hm _ ih =>
    rw [pinEvents_append, ih, List.flatMap_cons]
    cases hm with
    | set p v failed => rw [pinEvents_setEvents]; rfl
    | wait | warn => rfl

/-- A list without WARNs emits a pin event first. -/
theorem Emits.isPinEvent_head {q : List Micro} {evs : List Event} (h : Emits q evs) (hq : ∀ m ∈ q, isSetUp m = true) :
    ∀ e ∈ evs.head?, isPinEvent e = true := by
  cases h with
  | nil => simp
  | cons hm hrest =>
    cases hm with
    | set p v failed => simp [setEvents, isPinEvent]
    | wait t => simp [isPinEvent]
    | warn w => exact absurd (hq (.warn w) (List.mem_cons_self ..)) Bool.false_ne_true

/-! ### What the sequencer's steps emit -/

theorem perform_microEmits {m : Micro} (hm : isQuiet m = true) (s : State) :
    ∃ e, MicroEmits m e ∧ (perform m s).trace = s.trace ++ e := by
  cases m with
  | setPin p v =>
    cases h : s.nextAnswer with
    | ok => exact ⟨_, .set p v false, by rw [perform_setPin_ok p v h]; rfl⟩
    | fail => exact ⟨_, .set p v true, by rw [perform_setPin_fail p v h]; rfl⟩
  | wait t => exact ⟨_, .wait t, rfl⟩
  | warn w => exact ⟨_, .warn w, rfl⟩
  | openDev | cfgPin | release | fatal => cases hm

theorem CommandFrame.refl (s : State) : CommandFrame s s := ⟨rfl, rfl, rfl, rfl, rfl, rfl, rfl, rfl, rfl⟩

theorem finishIfEmpty_commandFrame (s : State) : CommandFrame s (finishIfEmpty s) := by
  unfold finishIfEmpty finishSequence
  split
  · split <;> exact { CommandFrame.refl s with }
  · exact .refl s

@[simp] theorem finishIfEmpty_trace (s : State) : (finishIfEmpty s).trace = s.trace := by
  unfold finishIfEmpty finishSequence
  split
  · split <;> rfl
  · rfl

/-- One step of a quiet head, in INIT or BUSY: its events join the trace, and the block runs on with what is left. -/
theorem runSequencer_emits {s : State} {m : Micro} {rest : List Micro} (hseq : s.seq = m :: rest)
    (hm : isQuiet m = true) :
    CommandFrame s (runSequencer s) ∧ (∃ e, MicroEmits m e ∧ (runSequencer s).trace = s.trace ++ e)
      ∧ (rest ≠ [] → (runSequencer s).mode = s.mode ∧ (runSequencer s).seq = rest) := by
  obtain ⟨hmode, hrest, -, -⟩ := perform_quiet hm (s.setSeq rest)
  obtain ⟨e, he, htrace⟩ := perform_microEmits hm (s.setSeq rest)
  rw [runSequencer_cons hseq]
  refine ⟨(perform_commandFrame hm s rest).trans (finishIfEmpty_commandFrame _), ⟨e, he, ?_⟩, fun hne => ?_⟩
  · rw [finishIfEmpty_trace, htrace]
    rfl
  · rw [finishIfEmpty_of_ne (hrest ▸ hne)]
    exact ⟨hmode, hrest⟩

/-- A quiet list at the front of `seq` runs in as many steps as it has micro-operations. -/
theorem runSteps_emits {q rest : List Micro} {s : State} (hfree : Undisturbed s)
    (hmode : q ≠ [] → s.mode = .init ∨ s.mode = .busy) (hseq : s.seq = q ++ rest) (hq : ∀ m ∈ q, isQuiet m = true) :
    ∃ t evs, runSteps q.length s = .next t ∧ CommandFrame s t ∧ t.trace = s.trace ++ evs ∧ Emits q evs := by
  induction q generalizing s with
  | nil => exact ⟨s, [], rfl, .refl s, (List.append_nil _).symm, .nil⟩
  | cons m q ih =>
    obtain ⟨hm, hq⟩ := List.forall_mem_cons.mp hq
    obtain ⟨hframe, ⟨e, he, htrace⟩, hnext⟩ := runSequencer_emits hseq hm
    have hrun := hmode (List.cons_ne_nil m q)
    rw [List.length_cons, runSteps_succ _ (step_running hfree hrun)]
    by_cases hend : q = []
    · subst hend
      exact ⟨_, e ++ [], rfl, hframe, by rw [htrace, List.append_nil], .cons he .nil⟩
    · obtain ⟨hmode', hseq'⟩ := hnext (List.append_ne_nil_of_left_ne_nil hend rest)
      obtain ⟨t, evs, hrun', hframe', htrace', hevs⟩ :=
        ih (hframe.undisturbed hfree) (fun _ => hmode' ▸ hrun) hseq' hq
      exact ⟨t, e ++ evs, hrun', hframe.trans hframe', by rw [htrace', htrace, List.append_assoc], .cons he hevs⟩

end Sys2Proof.Machine
end

section
/-! The observer of the lines over a run (40_transport.md R106 to R109): what it keeps and latches over a
list of micro-operations, whichever of its SETs fail, put together part by part (`Observes.append`). -/

namespace Sys2Proof.Machine

/-! ### The observer over the parts of a trace -/

/-- What the observer keeps at the end of a trace, and what the trace latches. -/
def observe (pins : PinMap) (k : Probe) (tr : List Event) : Probe × List Latch :=
  (probeFrom pins k tr, latchedFrom pins k tr)

/-- What the observer makes of a SET that is known to have failed or not. -/
def probeNext (pins : PinMap) (k : Probe) (p : Line) (v failed : Bool) : Probe × List Latch :=
  if endsStrobe pins k p v then latchNibble (probeSet pins k p v failed) else (probeSet pins k p v failed, [])

theorem probeEvent_eq (pins : PinMap) (k : Probe) (p : Line) (v : Bool) (rest : List Event) :
    probeEvent pins k p v rest = probeNext pins k p v (failedNext rest) := rfl

theorem failedNext_append (a : List Event) {b : List Event} (hb : failedNext b = false) :
    failedNext (a ++ b) = failedNext a := by
  cases a with
  | nil => exact hb
  | cons e a => rfl

/-- The observer reads a trace part by part, where no part begins with the warning of a SET of the part before. -/
theorem observe_append (pins : PinMap) (k : Probe) (a : List Event) {b : List Event} (hb : failedNext b = false) :
    observe pins k (a ++ b)
      = ((observe pins (observe pins k a).1 b).1, (observe pins k a).2 ++ (observe pins (observe pins k a).1 b).2) := by
  induction a generalizing k with
  | nil => rfl
  | cons e a ih =>
    cases e with
    | setPin p v =>
      have hhead : probeEvent pins k p v (a ++ b) = probeEvent pins k p v a := by
        rw [probeEvent_eq, probeEvent_eq, failedNext_append a hb]
      have hrest := ih (probeEvent pins k p v a).1
      simp only [observe, Prod.mk.injEq] at hrest
      simp only [observe, List.cons_append, probeFrom, latchedFrom, hhead, hrest, List.append_assoc]
    | openDev | cfgPin | wait | release | warn | fatal => exact ih k

theorem observe_setEvents (pins : PinMap) (k : Probe) (p : Line) (v failed : Bool) :
    observe pins k (setEvents p v failed) = probeNext pins k p v failed := by
  cases failed <;> simp [observe, setEvents, probeFrom, latchedFrom, probeEvent_eq, failedNext, isTransientIo]

/-- A list without WARNs does not begin with the warning of an earlier SET. -/
theorem Emits.failedNext_eq_false {q : List Micro} {evs : List Event} (h : Emits q evs)
    (hq : ∀ m ∈ q, isSetUp m = true) : failedNext evs = false := by
  have hhead := h.isPinEvent_head hq
  cases evs with
  | nil => rfl
  | cons e evs =>
    have hpin : isPinEvent e = true := hhead e rfl
    cases e with
    | cfgPin | setPin | wait => rfl
    | openDev | release | warn | fatal => cases hpin

/-! ### What the observer makes of a list of micro-operations -/

/-- Over any run of `q` the observer goes from `k` to the first part of `r` and the run latches its second part, both by
whether a SET of the run failed. -/
def Observes (pins : PinMap) (q : List Micro) (k : Probe) (r : Bool → Probe × List Latch) : Prop :=
  (∀ m ∈ q, isSetUp m = true) ∧ ∀ evs, Emits q evs → observe pins k evs = r (hasTransientIo evs)

theorem Observes.append {pins : PinMap} {q₁ q₂ : List Micro} {k : Probe} {r₁ r : Bool → Probe × List Latch}
    {r₂ : Bool → Bool → Probe × List Latch} (h₁ : Observes pins q₁ k r₁) (h₂ : ∀ f, Observes pins q₂ (r₁ f).1 (r₂ f))
    (hr : ∀ f g, r (f || g) = ((r₂ f g).1, (r₁ f).2 ++ (r₂ f g).2)) : Observes pins (q₁ ++ q₂) k r := by
  refine ⟨List.forall_mem_append.mpr ⟨h₁.1, (h₂ false).1⟩, fun evs hevs => ?_⟩
  obtain ⟨a, b, rfl, ha, hb⟩ := hevs.append_inv
  rw [observe_append pins k a (hb.failedNext_eq_false (h₂ false).1), h₁.2 a ha, (h₂ _).2 b hb,
    hasTransientIo_append, hr]

/-- A WAIT shows the observer nothing. -/
theorem observe_wait (pins : PinMap) (k : Probe) (t : Micros) : observe pins k [.wait t] = (k, []) := rfl

theorem Observes.append_wait {pins : PinMap} {q : List Micro} {k : Probe} {r : Bool → Probe × List Latch}
    (h : Observes pins q k r) (t : Micros) : Observes pins (q ++ [.wait t]) k r := by
  refine ⟨List.forall_mem_append.mpr ⟨h.1, by simp [isSetUp]⟩, fun evs hevs => ?_⟩
  obtain ⟨a, b, rfl, ha, hb⟩ := hevs.append_inv
  rw [emits_wait hb, observe_append pins k a rfl, observe_wait, List.append_nil, h.2 a ha, hasTransientIo_append]
  exact congrArg r (Bool.or_false _).symm

theorem Observes.wait_append {pins : PinMap} {q : List Micro} {k : Probe} {r : Bool → Probe × List Latch}
    (h : Observes pins q k r) (t : Micros) : Observes pins ([.wait t] ++ q) k r := by
  refine ⟨List.forall_mem_append.mpr ⟨by simp [isSetUp], h.1⟩, fun evs hevs => ?_⟩
  obtain ⟨a, b, rfl, ha, hb⟩ := hevs.append_inv
  rw [emits_wait ha, observe_append pins k _ (hb.failedNext_eq_false h.1), observe_wait, List.nil_append, h.2 b hb]
  rfl

theorem observes_setPin (pins : PinMap) (p : Line) (v : Bool) (k : Probe) :
    Observes pins [.setPin p v] k (probeNext pins k p v) := by
  refine ⟨by simp [isSetUp], fun evs hevs => ?_⟩
  obtain ⟨failed, rfl⟩ := emits_set hevs
  rw [observe_setEvents, hasTransientIo_setEvents]

end Sys2Proof.Machine
end

section
/-! What the LCD latches from a WRITE (40_transport.md R106 to R109). A SET is said once for all roles
(`probeSet_of_role`); the parts of a WRITE follow the model's composites. -/

namespace Sys2Proof.Machine

/-! ### One SET, by the role of its line -/

/-- The role a WRITE drives first: R/W, or RS where R/W is unbound (R106). -/
def firstRole (pins : PinMap) : Role := if pins.readWrite = none then .regSel else .readWrite

theorem firstWriteLine_eq (pins : PinMap) : firstWriteLine pins = lineOf pins (firstRole pins) := by
  unfold firstWriteLine firstRole
  cases h : pins.readWrite <;> simp [lineOf, h]

theorem firstRole_cases (pins : PinMap) : firstRole pins = .regSel ∨ firstRole pins = .readWrite := by
  unfold firstRole
  split <;> simp

/-- What the observer keeps after a SET of a role's line. -/
def roleSet (pins : PinMap) (k : Probe) (r : Role) (v failed : Bool) : Probe :=
  { rs := if r = .regSel then v else k.rs
    data := if r = .dat0 then withBit k.data 0 v else if r = .dat1 then withBit k.data 1 v
      else if r = .dat2 then withBit k.data 2 v else if r = .dat3 then withBit k.data 3 v else k.data
    high := if r = .enable then v else k.high
    failed := if r = firstRole pins then failed else if r = .backlight then k.failed else k.failed || failed
    upper := if r = firstRole pins then none else k.upper }

/-- What the observer makes of it: the fall of E ends a strobe that is under way (R107). -/
def roleNext (pins : PinMap) (k : Probe) (r : Role) (v failed : Bool) : Probe × List Latch :=
  if r = .enable ∧ v = false ∧ k.high = true then latchNibble (roleSet pins k r v failed)
  else (roleSet pins k r v failed, [])

/-- The bits of a nibble driven one by one, bit 3 first, are the nibble (R59, D6). -/
theorem withBit_all : ∀ m n : Nibble,
    withBit (withBit (withBit (withBit m 3 (n.getLsbD 3)) 2 (n.getLsbD 2)) 1 (n.getLsbD 1)) 0 (n.getLsbD 0) = n := by
  decide

/-- The two nibbles of a byte, upper first, are the byte (R59). -/
theorem upperNibble_append_lowerNibble (b : Byte) : upperNibble b ++ lowerNibble b = b :=
  BitVec.extractLsb'_append_extractLsb'

/-- Over any run of `q` the data nibble goes from `n` to `φ n`, and nothing is latched. -/
def DrivesData (pins : PinMap) (q : List Micro) (φ : Nibble → Nibble) : Prop :=
  ∀ k : Probe, Observes pins q k fun f => ({ k with data := φ k.data, failed := k.failed || f }, [])

theorem DrivesData.append {pins : PinMap} {q₁ q₂ : List Micro} {φ ψ : Nibble → Nibble} (h₁ : DrivesData pins q₁ φ)
    (h₂ : DrivesData pins q₂ ψ) : DrivesData pins (q₁ ++ q₂) fun n => ψ (φ n) :=
  fun k => (h₁ k).append (fun _ => h₂ _) fun f g => by simp [Bool.or_assoc]

section
variable {par : Params} {pins : PinMap} (hvalid : pinMapValid par pins = true)
include hvalid

/-- No two roles of a valid pin map share a line (R23). -/
theorem lineOf_inj {r r' : Role} {p : Line} (hr : lineOf pins r = some p) (hr' : lineOf pins r' = some p) : r' = r := by
  obtain ⟨-, -, -, hnodup⟩ := pinMapValid_bound hvalid
  have hapart : roles.Pairwise fun a b => ∀ p, lineOf pins a = some p → ∀ q, lineOf pins b = some q → p ≠ q :=
    List.pairwise_filterMap.mp hnodup
  have hsymm : Std.Symm fun a b => ∀ p, lineOf pins a = some p → ∀ q, lineOf pins b = some q → p ≠ q :=
    ⟨fun _ _ h p hp q hq => (h q hq p hp).symm⟩
  have hroles : ∀ r : Role, r ∈ roles := fun r => by cases r <;> decide
  by_contra hne
  exact hapart.forall (hroles r') (hroles r) hne p hr' p hr rfl

theorem lineOf_eq_iff {r r' : Role} {p : Line} (hr : lineOf pins r = some p) : lineOf pins r' = some p ↔ r' = r :=
  ⟨lineOf_inj hvalid hr, fun h => h ▸ hr⟩

/-- A valid pin map binds every role but R/W and BL. -/
theorem bound_of_valid {r : Role} (hread : r ≠ .readWrite) (hback : r ≠ .backlight) : ∃ p, lineOf pins r = some p :=
  Option.ne_none_iff_exists'.mp fun hnone => (unbound_of_valid hvalid hnone).elim hread hback

theorem probeSet_of_role {r : Role} {p : Line} (hr : lineOf pins r = some p) (k : Probe) (v failed : Bool) :
    probeSet pins k p v failed = roleSet pins k r v failed := by
  have hline : ∀ r', lineOf pins r' = some p ↔ r = r' := fun r' => (lineOf_eq_iff hvalid hr).trans eq_comm
  have hrs : pins.regSel = some p ↔ r = .regSel := hline .regSel
  have he : pins.enable = some p ↔ r = .enable := hline .enable
  have hwrite : isWriteLine pins p = true ↔ r ≠ .backlight := by
    simp only [isWriteLine, List.any_cons, List.any_nil, Bool.or_eq_true, beq_iff_eq, hline]
    cases r <;> simp
  simp only [probeSet, probeData, probeFailed, roleSet, firstWriteLine_eq, hline, hrs, he, hwrite, ite_not]

theorem endsStrobe_of_role {r : Role} {p : Line} (hr : lineOf pins r = some p) (k : Probe) (v : Bool) :
    endsStrobe pins k p v = (decide (r = .enable) && !v && k.high) := by
  have he : pins.enable = some p ↔ r = .enable := (lineOf_eq_iff hvalid hr (r' := .enable)).trans eq_comm
  have henable : (pins.enable == some p) = decide (r = .enable) := by
    rw [Bool.eq_iff_iff, beq_iff_eq, decide_eq_true_iff, he]
  rw [endsStrobe, henable]

/-! ### The SETs of a WRITE -/

theorem observes_setRole {r : Role} {p : Line} (hr : lineOf pins r = some p) {v : Bool} {k : Probe}
    {next : Bool → Probe × List Latch} (hnext : ∀ f, roleNext pins k r v f = next f) :
    Observes pins (setRole pins r v) k next := by
  have heq : probeNext pins k p v = next := by
    funext f
    rw [← hnext, probeNext, endsStrobe_of_role hvalid hr, probeSet_of_role hvalid hr, roleNext]
    simp only [Bool.and_eq_true, decide_eq_true_iff, Bool.not_eq_true', and_assoc]
  rw [setRole_of_bound hr, ← heq]
  exact observes_setPin pins p v k

/-- The first SETs of a WRITE, R/W where it is bound and RS: the record starts afresh (R106). -/
theorem observes_writeStart (rs : Bool) (k : Probe) :
    Observes pins (setRole pins .readWrite false ++ setRole pins .regSel rs) k fun f =>
      ({ k with rs := rs, failed := f, upper := none }, []) := by
  obtain ⟨r, hr⟩ := bound_of_valid hvalid (r := .regSel) (by simp) (by simp)
  cases hread : pins.readWrite with
  | none =>
    have hfirst : firstRole pins = .regSel := by simp [firstRole, hread]
    rw [setRole_of_unbound (r := .readWrite) hread, List.nil_append]
    exact observes_setRole hvalid hr fun f => by simp [roleNext, roleSet, hfirst]
  | some w =>
    have hfirst : firstRole pins = .readWrite := by simp [firstRole, hread]
    have hwrite : Observes pins (setRole pins .readWrite false) k fun f =>
        ({ k with failed := f, upper := none }, []) :=
      observes_setRole hvalid (r := .readWrite) hread fun f => by simp [roleNext, roleSet, hfirst]
    have hselect : ∀ f, Observes pins (setRole pins .regSel rs) { k with failed := f, upper := none } fun g =>
        ({ k with rs := rs, failed := f || g, upper := none }, []) :=
      fun f => observes_setRole hvalid hr fun g => by simp [roleNext, roleSet, hfirst]
    exact hwrite.append hselect fun f g => by simp

/-- A data line driven: its bit of the nibble. -/
theorem drivesData_setRole {r : Role} {place : Nat}
    (hr : (r, place) ∈ [(Role.dat0, 0), (.dat1, 1), (.dat2, 2), (.dat3, 3)]) (v : Bool) :
    DrivesData pins (setRole pins r v) fun n => withBit n place v := by
  intro k
  have hbound := bound_of_valid hvalid (r := r)
  have hfirst := firstRole_cases pins
  simp only [List.mem_cons, Prod.mk.injEq, List.not_mem_nil, or_false] at hr
  obtain ⟨rfl, rfl⟩ | ⟨rfl, rfl⟩ | ⟨rfl, rfl⟩ | ⟨rfl, rfl⟩ := hr
  all_goals
    obtain ⟨p, hp⟩ := hbound (by simp) (by simp)
    refine observes_setRole hvalid hp fun f => ?_
    rcases hfirst with h | h <;> simp [roleNext, roleSet, h]

/-- The four data lines driven, bit 3 first: the nibble, whatever they held (R59, R106). -/
theorem drivesData_driveNibble (n : Nibble) : DrivesData pins (driveNibble pins n) fun _ => n := by
  have hbit := fun r place hr => drivesData_setRole hvalid (r := r) (place := place) hr (n.getLsbD place)
  have hdrive := (((hbit .dat3 3 (by simp)).append (hbit .dat2 2 (by simp))).append (hbit .dat1 1 (by simp))).append
    (hbit .dat0 0 (by simp))
  simpa only [driveNibble, withBit_all] using hdrive

/-- The rise of E (R107). -/
theorem observes_rise (k : Probe) : Observes pins (setRole pins .enable true) k fun f =>
    ({ k with high := true, failed := k.failed || f }, []) := by
  obtain ⟨p, hp⟩ := bound_of_valid hvalid (r := .enable) (by simp) (by simp)
  refine observes_setRole hvalid hp fun f => ?_
  rcases firstRole_cases pins with h | h <;> simp [roleNext, roleSet, h]

/-- The fall of E, after its rise, ends the strobe (R107). -/
theorem observes_fall {k : Probe} (hk : k.high = true) : Observes pins (setRole pins .enable false) k fun f =>
    latchNibble { k with high := false, failed := k.failed || f } := by
  obtain ⟨p, hp⟩ := bound_of_valid hvalid (r := .enable) (by simp) (by simp)
  refine observes_setRole hvalid hp fun f => ?_
  rcases firstRole_cases pins with h | h <;> simp [roleNext, roleSet, h, hk]

/-- A nibble driven and E risen: its strobe is under way (R106, R107). -/
theorem observes_toRise (n : Nibble) (t : Micros) (k : Probe) :
    Observes pins (driveNibble pins n ++ [.wait t] ++ setRole pins .enable true) k fun f =>
      ({ k with data := n, high := true, failed := k.failed || f }, []) :=
  ((drivesData_driveNibble hvalid n k).append_wait t).append (fun _ => observes_rise hvalid _) fun f g => by
    simp [Bool.or_assoc]

/-- The strobe under way ends, and its nibble is latched (R59, R107). -/
theorem observes_fromRise {k : Probe} (hk : k.high = true) (t₁ t₂ : Micros) :
    Observes pins ([.wait t₁] ++ setRole pins .enable false ++ [.wait t₂]) k fun f =>
      latchNibble { k with high := false, failed := k.failed || f } :=
  ((observes_fall hvalid hk).wait_append t₁).append_wait t₂

/-- One nibble of a WRITE is latched (R59, R106). -/
theorem observes_sendNibble (n : Nibble) (k : Probe) : Observes pins (sendNibble par pins n) k fun f =>
    latchNibble { k with data := n, high := false, failed := k.failed || f } := by
  have hsend := (observes_toRise hvalid n par.timing.setup k).append
    (fun f => observes_fromRise hvalid (k := { k with data := n, high := true, failed := k.failed || f }) rfl
      par.timing.strobe par.timing.hold)
    (r := fun f => latchNibble { k with data := n, high := false, failed := k.failed || f })
    fun f g => by simp [Bool.or_assoc]
  simpa [sendNibble, strobe] using hsend

/-- A WRITE latches its pair, or Corrupt where one of its SETs failed, whatever stood before it (R109, D34). -/
theorem observes_writeMicros (rs : Bool) (b : Byte) (k : Probe) : Observes pins (writeMicros par pins rs b) k fun f =>
    ({ rs := rs, data := lowerNibble b, high := false, failed := f, upper := none },
      [if f then .corrupt else .pair rs b]) := by
  have hupper : Observes pins
      (setRole pins .readWrite false ++ setRole pins .regSel rs ++ sendNibble par pins (upperNibble b)) k fun f =>
        ({ rs := rs, data := upperNibble b, high := false, failed := f, upper := some (upperNibble b) }, []) :=
    (observes_writeStart hvalid rs k).append (fun _ => observes_sendNibble hvalid _ _) fun f g => by simp [latchNibble]
  exact hupper.append (fun _ => observes_sendNibble hvalid _ _) fun f g => by
    simp [latchNibble, upperNibble_append_lowerNibble]

end

end Sys2Proof.Machine
end

section
/-! A WRITE cut short (70_reset_and_hazards.md R205, log 23), and a WRITE the sequencer runs. From the rise of E in its
first strobe on, E is high or the first nibble is latched, until E falls in the second. -/

namespace Sys2Proof.Machine

/-! ### A WRITE, cut at its strobes -/

/-- A WRITE up to the rise of E in its first strobe. -/
def toFirstRise (par : Params) (pins : PinMap) (rs : Bool) (b : Byte) : List Micro :=
  setRole pins .readWrite false ++ setRole pins .regSel rs
    ++ (driveNibble pins (upperNibble b) ++ [.wait par.timing.setup] ++ setRole pins .enable true)

/-- A WRITE from the fall of E in its first strobe to before its fall in the second. -/
def toSecondFall (par : Params) (pins : PinMap) (b : Byte) : List Micro :=
  [.wait par.timing.hold] ++ (driveNibble pins (lowerNibble b) ++ [.wait par.timing.setup] ++ setRole pins .enable true)
    ++ [.wait par.timing.strobe]

/-- A WRITE from the rise of E in its first strobe to before its fall in the second. -/
def betweenStrobes (par : Params) (pins : PinMap) (b : Byte) : List Micro :=
  [.wait par.timing.strobe] ++ setRole pins .enable false ++ toSecondFall par pins b

section
variable {par : Params} {pins : PinMap} {rs : Bool} {b : Byte}

/-- A micro-operation that neither starts a WRITE nor lets E fall. -/
def KeepsUpper (pins : PinMap) (m : Micro) : Prop :=
  (∃ t, m = .wait t) ∨ ∃ r p v, lineOf pins r = some p ∧ r ≠ firstRole pins ∧ (r = .enable → v = true) ∧ m = .setPin p v

theorem setRole_keepsUpper {r : Role} {v : Bool} (hfirst : r ≠ firstRole pins) (hv : r = .enable → v = true) :
    ∀ m ∈ setRole pins r v, KeepsUpper pins m := by
  intro m hm
  obtain ⟨p, hp, rfl⟩ := mem_setRole hm
  exact .inr ⟨r, p, v, hp, hfirst, hv, rfl⟩

theorem KeepsUpper.isSetUp {m : Micro} (h : KeepsUpper pins m) : isSetUp m = true := by
  obtain ⟨t, rfl⟩ | ⟨r, p, v, -, -, -, rfl⟩ := h <;> rfl

theorem toSecondFall_keepsUpper : ∀ m ∈ toSecondFall par pins b, KeepsUpper pins m := by
  have hwait : ∀ t, ∀ m ∈ [Micro.wait t], KeepsUpper pins m := fun t m hm => .inl ⟨t, List.mem_singleton.mp hm⟩
  have hrole : ∀ r, r ≠ .readWrite → r ≠ .regSel → r ≠ firstRole pins := by
    intro r hread hselect
    rcases firstRole_cases pins with h | h <;> rwa [h]
  simp only [toSecondFall, driveNibble, List.forall_mem_append]
  refine ⟨⟨hwait _, ⟨⟨⟨⟨?_, ?_⟩, ?_⟩, ?_⟩, hwait _⟩, ?_⟩, hwait _⟩
  all_goals exact setRole_keepsUpper (hrole _ (by simp) (by simp)) (by simp)

section
variable (hvalid : pinMapValid par pins = true)
include hvalid

theorem probeNext_upper {r : Role} {p : Line} (hr : lineOf pins r = some p) (hfirst : r ≠ firstRole pins) {v : Bool}
    (hv : r = .enable → v = true) (k : Probe) (failed : Bool) : (probeNext pins k p v failed).1.upper = k.upper := by
  have hends : endsStrobe pins k p v = false := by
    rw [endsStrobe_of_role hvalid hr]
    by_cases h : r = .enable <;> simp [h, hv]
  simp [probeNext, hends, probeSet_of_role hvalid hr, roleSet, hfirst]

/-- Such micro-operations leave the latched nibble. -/
theorem Emits.upper_kept {q : List Micro} {evs : List Event} (h : Emits q evs) (hq : ∀ m ∈ q, KeepsUpper pins m)
    (k : Probe) : (observe pins k evs).1.upper = k.upper := by
  induction h generalizing k with
  | nil => rfl
  | @cons m q e evs hm hevs ih =>
    obtain ⟨hkeep, hq⟩ := List.forall_mem_cons.mp hq
    rw [observe_append pins k e (hevs.failedNext_eq_false fun m hm => (hq m hm).isSetUp), ih hq]
    obtain ⟨t, rfl⟩ | ⟨r, p, v, hr, hfirst, hv, rfl⟩ := hkeep
    · cases hm
      rfl
    · cases hm
      rw [observe_setEvents]
      exact probeNext_upper hvalid hr hfirst hv k _

/-! ### Between the strobes -/

/-- At the rise of E in the first strobe no nibble is latched yet. -/
theorem observes_toFirstRise (k : Probe) : Observes pins (toFirstRise par pins rs b) k fun f =>
    ({ rs := rs, data := upperNibble b, high := true, failed := f, upper := none }, []) :=
  (observes_writeStart hvalid rs k).append (fun _ => observes_toRise hvalid _ _ _) fun f g => by simp

/-- At the fall of E in the first strobe the upper nibble is. -/
theorem observes_toFirstFall (k : Probe) :
    Observes pins (toFirstRise par pins rs b ++ [.wait par.timing.strobe] ++ setRole pins .enable false) k fun f =>
      ({ rs := rs, data := upperNibble b, high := false, failed := f, upper := some (upperNibble b) }, []) :=
  ((observes_toFirstRise hvalid k).append_wait _).append (fun _ => observes_fall hvalid rfl) fun f g => by
    simp [latchNibble]

/-- A WRITE is cut at its strobes: ten micro-operations from the first rise of E to before its second fall, and two
after. -/
theorem writeMicros_take {n : Nat} (hlo : (writeMicros par pins rs b).length ≤ n + 12)
    (hhi : n + 2 ≤ (writeMicros par pins rs b).length) :
    ∃ j, (writeMicros par pins rs b).take n = toFirstRise par pins rs b ++ (betweenStrobes par pins b).take j := by
  obtain ⟨e, he⟩ := bound_of_valid hvalid (r := .enable) (by simp) (by simp)
  obtain ⟨d, hd⟩ := bound_of_valid hvalid (r := .dat0) (by simp) (by simp)
  have hparts : writeMicros par pins rs b = toFirstRise par pins rs b
      ++ (betweenStrobes par pins b ++ (setRole pins .enable false ++ [.wait par.timing.hold])) := by
    simp [writeMicros, sendNibble, strobe, toFirstRise, betweenStrobes, toSecondFall]
  have hten : (betweenStrobes par pins b).length = 10 := by
    simp [betweenStrobes, toSecondFall, setRole_of_bound he, driveNibble_of_bound hd]
  have htwo : (setRole pins .enable false ++ [Micro.wait par.timing.hold]).length = 2 := by simp [setRole_of_bound he]
  rw [hparts, List.length_append, List.length_append, hten, htwo] at hlo hhi
  obtain ⟨j, rfl⟩ : ∃ j, n = (toFirstRise par pins rs b).length + j := ⟨_, (Nat.add_sub_of_le (by omega)).symm⟩
  refine ⟨j, ?_⟩
  rw [hparts, List.take_length_add_append, List.take_append_of_le_length (by omega)]

/-- From the first rise of E to before its second fall, E is high or the first nibble is latched (R205, log 23). -/
theorem high_or_upper_of_take {n : Nat} {evs : List Event} (hlo : (writeMicros par pins rs b).length ≤ n + 12)
    (hhi : n + 2 ≤ (writeMicros par pins rs b).length) (h : Emits ((writeMicros par pins rs b).take n) evs)
    (k : Probe) : (observe pins k evs).1.high = true ∨ (observe pins k evs).1.upper.isSome = true := by
  obtain ⟨e, he⟩ := bound_of_valid hvalid (r := .enable) (by simp) (by simp)
  obtain ⟨j, hj⟩ := writeMicros_take hvalid hlo hhi
  rw [hj, betweenStrobes, setRole_of_bound he] at h
  match j with
  | 0 =>
    left
    rw [(observes_toFirstRise hvalid k).2 evs (by simpa using h)]
  | 1 =>
    left
    rw [((observes_toFirstRise hvalid k).append_wait _).2 evs h]
  | j + 2 =>
    right
    have hfall : Emits ((toFirstRise par pins rs b ++ [.wait par.timing.strobe] ++ setRole pins .enable false)
        ++ (toSecondFall par pins b).take j) evs := by
      simpa [setRole_of_bound he] using h
    obtain ⟨a, c, rfl, ha, hc⟩ := hfall.append_inv
    have hkeep : ∀ m ∈ (toSecondFall par pins b).take j, KeepsUpper pins m :=
      fun m hm => toSecondFall_keepsUpper m (List.mem_of_mem_take hm)
    rw [observe_append pins k a (hc.failedNext_eq_false fun m hm => (hkeep m hm).isSetUp), hc.upper_kept hvalid hkeep,
      (observes_toFirstFall hvalid k).2 a ha]
    rfl

/-- A trace that ends there ends inside a WRITE, whatever came before. -/
theorem endsMidWrite_of_take {n : Nat} {evs : List Event} (hlo : (writeMicros par pins rs b).length ≤ n + 12)
    (hhi : n + 2 ≤ (writeMicros par pins rs b).length) (h : Emits ((writeMicros par pins rs b).take n) evs)
    (c : List Event) : endsMidWrite pins (c ++ evs) = true := by
  have hfirst : failedNext evs = false :=
    h.failedNext_eq_false fun m hm => (writeMicros_boundSetUp (List.mem_of_mem_take hm)).1
  have hlast := congrArg Prod.fst (observe_append pins Probe.start c hfirst)
  have hmid := high_or_upper_of_take hvalid hlo hhi h (observe pins Probe.start c).1
  rw [← hlast] at hmid
  exact (Bool.or_eq_true _ _).mpr hmid

end

end

/-! ### RESET's pin events -/

theorem pinEvents_of_beginsWith {pat tr : List Event} (h : beginsWith pat tr = true) : pat <+: pinEvents tr := by
  cases tr with
  | nil => simp [beginsWith] at h
  | cons e rest =>
    simp only [beginsWith, Bool.and_eq_true] at h
    exact List.isPrefixOf_iff_prefix.mp h.2

/-- In a trace with no more pin events than the given ones, that begins with a pin event, an occurrence is the whole. -/
theorem fromLast_eq_self {pat tr w : List Event} (hlen : (pinEvents tr).length ≤ pat.length)
    (hhead : ∀ e ∈ tr.head?, isPinEvent e = true) (h : fromLast pat tr = some w) : w = tr := by
  obtain ⟨⟨a, rfl⟩, hbegins⟩ := fromLast_some h
  have hw := beginsWith_length hbegins
  cases a with
  | nil => rfl
  | cons e a =>
    have he : isPinEvent e = true := hhead e rfl
    have hcount : (pinEvents (e :: a ++ w)).length = (pinEvents a).length + 1 + (pinEvents w).length := by
      simp [pinEvents, he, Nat.add_right_comm]
    omega

theorem eq_of_setPin_mem_microPinEvents {m : Micro} {p : Line} {v : Bool} (h : .setPin p v ∈ microPinEvents m) :
    m = .setPin p v := by
  cases m with
  | cfgPin | wait => cases List.mem_singleton.mp h
  | setPin =>
    cases List.mem_singleton.mp h
    rfl
  | openDev | release | warn | fatal => cases h

theorem length_flatMap_microPinEvents_le (q : List Micro) : (q.flatMap microPinEvents).length ≤ q.length := by
  induction q with
  | nil => exact Nat.le_refl 0
  | cons m q ih =>
    have hm : (microPinEvents m).length ≤ 1 := by cases m <;> simp [microPinEvents]
    rw [List.flatMap_cons, List.length_append, List.length_cons]
    omega

theorem length_flatMap_microPinEvents {q : List Micro} (hq : ∀ m ∈ q, isSetUp m = true) :
    (q.flatMap microPinEvents).length = q.length := by
  induction q with
  | nil => rfl
  | cons m q ih =>
    obtain ⟨hm, hq⟩ := List.forall_mem_cons.mp hq
    rw [List.flatMap_cons, List.length_append, ih hq, List.length_cons, Nat.add_comm]
    cases m with
    | cfgPin | setPin | wait => rfl
    | openDev | release | warn | fatal => cases hm

theorem resetPinEvents_length (par : Params) (cfg : DisplayConfig) (pins : PinMap) :
    (resetPinEvents par cfg pins).length = (itemsMicros par pins (expandReset par cfg).items).length :=
  length_flatMap_microPinEvents fun _ hm => (resetMicros_boundSetUp hm).1

end Sys2Proof.Machine
end

section
/-! A command's events against a RESET's (41_commands.md section 1; 70_reset_and_hazards.md R205). No command has more
pin events than RESET, save TAB, which writes data only: so an occurrence of a RESET within a command's own events is
the whole of them. -/

namespace Sys2Proof.Machine

/-! ### How many micro-operations a command has -/

/-- How many micro-operations a WRITE has on a valid pin map (R106). -/
def writeLength (pins : PinMap) : Nat := (setRole pins .readWrite false).length + 19

/-- How many micro-operations an item has on a valid pin map. -/
def itemLength (pins : PinMap) : Item → Nat
  | .write _ _ => writeLength pins
  | .wait _ => 1
  | .warn _ => 1

section
variable {par : Params} {cfg : DisplayConfig} {pins : PinMap} {cur : Cursor}

section
variable (hvalid : pinMapValid par pins = true)
include hvalid

theorem writeMicros_length (rs : Bool) (b : Byte) : (writeMicros par pins rs b).length = writeLength pins := by
  obtain ⟨r, hr⟩ := bound_of_valid hvalid (r := .regSel) (by simp) (by simp)
  obtain ⟨e, he⟩ := bound_of_valid hvalid (r := .enable) (by simp) (by simp)
  obtain ⟨d, hd⟩ := bound_of_valid hvalid (r := .dat0) (by simp) (by simp)
  rw [writeMicros_of_bound rs b hr he hd, List.length_append]
  rfl

theorem itemsMicros_length (items : List Item) :
    (itemsMicros par pins items).length = (items.map (itemLength pins)).sum := by
  have hitem : ∀ it, (itemMicros par pins it).length = itemLength pins it := by
    intro it
    cases it with
    | write rs b => exact writeMicros_length hvalid rs b
    | wait | warn => rfl
  rw [itemsMicros, List.length_flatMap, funext hitem]

/-- RESET has four WRITEs with a WAIT after each, besides its function sets (R120). -/
theorem resetPinEvents_length_ge : 4 * (writeLength pins + 1) ≤ (resetPinEvents par cfg pins).length := by
  rw [resetPinEvents_length, itemsMicros_length hvalid]
  simp only [expandReset, controlItems, clearItems, List.map_append, List.sum_append, List.map_cons, List.map_nil,
    List.sum_cons, List.sum_nil, itemLength]
  omega

theorem flashItems_length : (itemsMicros par pins (flashItems par cfg)).length = 4 * (writeLength pins + 1) := by
  rw [itemsMicros_length hvalid]
  simp only [flashItems, flashToggle, List.map_append, List.sum_append, List.map_cons, List.map_nil, List.sum_cons,
    List.sum_nil, itemLength]
  omega

/-- No command but TAB is longer than RESET. -/
theorem expand_length_le {i : Instr} (hi : i.isCommand = true) (htab : i ≠ .tab) :
    (itemsMicros par pins (expand par cfg cur i).items).length ≤ (resetPinEvents par cfg pins).length := by
  have hreset := resetPinEvents_length_ge (cfg := cfg) hvalid
  have hflash := flashItems_length (cfg := cfg) hvalid
  have hlength := itemsMicros_length hvalid
  cases i with
  | reset => exact (resetPinEvents_length par cfg pins).ge
  | flash => exact hflash.trans_le hreset
  | bksp =>
    simp only [expand, expandBackspace]
    split
    · simp only [hlength, List.map_cons, List.map_nil, List.sum_cons, List.sum_nil, itemLength]
      omega
    · exact hflash.trans_le hreset
  | char c =>
    simp only [expand, expandChar]
    split
    all_goals
      simp only [hlength, List.map_cons, List.map_nil, List.sum_cons, List.sum_nil, itemLength]
      omega
  | clear | nl | cr | home | unk =>
    simp only [hlength, expand, expandClear, clearItems, expandNewline, expandReturn, expandHome, expandUnknown,
      List.map_cons, List.map_nil, List.sum_cons, List.sum_nil, itemLength]
    omega
  | tab => exact absurd rfl htab
  | clearDisplay | returnHome | entryModeInc | displayOff | displayOn | cursorLeft | functionSet | setDdram => cases hi

/-! ### A RESET within a command's events -/

/-- RS is driven by its own SET alone, so a data WRITE never drives it low (R106). -/
theorem setPin_false_not_mem_writeMicros {r : Line} (hr : pins.regSel = some r) (b : Byte) :
    .setPin r false ∉ writeMicros par pins true b := by
  obtain ⟨e, he⟩ := bound_of_valid hvalid (r := .enable) (by simp) (by simp)
  obtain ⟨d, hd⟩ := bound_of_valid hvalid (r := .dat0) (by simp) (by simp)
  have hother : ∀ {role p}, lineOf pins role = some p → role ≠ .regSel → r ≠ p := by
    rintro role p hp hne rfl
    exact hne (lineOf_inj hvalid (r := .regSel) hr hp)
  have henable : r ≠ e := hother he (by simp)
  have hdat0 : r ≠ d := hother hd (by simp)
  have hdat1 : r ≠ d + 1 := hother (role := .dat1) (congrArg (Option.map (· + 1)) hd) (by simp)
  have hdat2 : r ≠ d + 2 := hother (role := .dat2) (congrArg (Option.map (· + 2)) hd) (by simp)
  have hdat3 : r ≠ d + 3 := hother (role := .dat3) (congrArg (Option.map (· + 3)) hd) (by simp)
  rw [writeMicros_of_bound true b hr he hd, List.mem_append, not_or]
  refine ⟨fun h => ?_, by simp [henable, hdat0, hdat1, hdat2, hdat3]⟩
  obtain ⟨p, hp, hset⟩ := mem_setRole h
  cases hset
  exact hother hp (by simp) rfl

/-- RESET drives RS low (R120). -/
theorem setPin_false_mem_resetPinEvents {r : Line} (hr : pins.regSel = some r) :
    .setPin r false ∈ resetPinEvents par cfg pins := by
  obtain ⟨e, he⟩ := bound_of_valid hvalid (r := .enable) (by simp) (by simp)
  obtain ⟨d, hd⟩ := bound_of_valid hvalid (r := .dat0) (by simp) (by simp)
  have hitem : .write false par.lcdOp.clearDisplay ∈ (expandReset par cfg).items := by simp [expandReset, clearItems]
  have hmicro : .setPin r false ∈ writeMicros par pins false par.lcdOp.clearDisplay := by
    rw [writeMicros_of_bound _ _ hr he hd]
    simp
  exact List.mem_flatMap.mpr ⟨_, List.mem_flatMap.mpr ⟨_, hitem, hmicro⟩, List.mem_singleton_self _⟩

/-- TAB's events hold no RESET: they never drive RS low. -/
theorem fromLast_tab {evs : List Event} (h : Emits (itemsMicros par pins (expandTab par cfg cur).items) evs) :
    fromLast (resetPinEvents par cfg pins) evs = none := by
  obtain ⟨r, hr⟩ := bound_of_valid hvalid (r := .regSel) (by simp) (by simp)
  cases hw : fromLast (resetPinEvents par cfg pins) evs with
  | none => rfl
  | some w =>
    obtain ⟨⟨a, rfl⟩, hbegins⟩ := fromLast_some hw
    have hreset := setPin_false_mem_resetPinEvents (cfg := cfg) hvalid hr
    have hlow : .setPin r false ∈ pinEvents (a ++ w) := by
      rw [pinEvents_append]
      exact List.mem_append_right _ ((pinEvents_of_beginsWith hbegins).subset hreset)
    rw [h.pinEvents_eq, List.mem_flatMap] at hlow
    obtain ⟨m, hm, hlow⟩ := hlow
    obtain ⟨it, hit, hm⟩ := List.mem_flatMap.mp hm
    rw [expandTab_item hit] at hm
    obtain rfl := eq_of_setPin_mem_microPinEvents hlow
    exact absurd hm (setPin_false_not_mem_writeMicros hvalid hr _)

end

/-- No command but UNK warns of itself. -/
theorem expand_no_warn {i : Instr} (hi : ∀ p, i ≠ .unk p) (w : WarnInfo) : .warn w ∉ (expand par cfg cur i).items := by
  cases i with
  | reset =>
    intro h
    obtain ⟨_, hwrite⟩ | ⟨_, hwait⟩ := expandReset_items h
    · cases hwrite
    · cases hwait
  | tab =>
    intro h
    cases expandTab_item h
  | bksp =>
    simp only [expand, expandBackspace]
    split <;> simp [flashItems, flashToggle]
  | char c =>
    simp only [expand, expandChar]
    split <;> simp
  | unk p => exact absurd rfl (hi p)
  | flash => simp [expand, expandFlash, flashItems, flashToggle]
  | clear | nl | cr | home =>
    simp [expand, expandClear, clearItems, expandNewline, expandReturn, expandHome]
  | clearDisplay | returnHome | entryModeInc | displayOff | displayOn | cursorLeft | functionSet | setDdram =>
    simp [expand]

theorem itemsMicros_isSetUp {items : List Item} (h : ∀ w, .warn w ∉ items) :
    ∀ m ∈ itemsMicros par pins items, isSetUp m = true := by
  intro m hm
  obtain ⟨it, hit, hm⟩ := List.mem_flatMap.mp hm
  cases it with
  | write rs b => exact (writeMicros_boundSetUp hm).1
  | wait t =>
    obtain rfl := List.mem_singleton.mp hm
    rfl
  | warn w => exact absurd hit (h w)

/-- Where a RESET occurs within a command's own events, it is the whole of them (R205, log 23). -/
theorem fromLast_command (hvalid : pinMapValid par pins = true) {i : Instr} (hi : i.isCommand = true)
    {evs w : List Event} (h : Emits (itemsMicros par pins (expand par cfg cur i).items) evs)
    (hw : fromLast (resetPinEvents par cfg pins) evs = some w) : w = evs := by
  by_cases htab : i = .tab
  · subst htab
    rw [fromLast_tab hvalid h] at hw
    cases hw
  · have hlen : (pinEvents evs).length ≤ (resetPinEvents par cfg pins).length := by
      rw [h.pinEvents_eq]
      exact (length_flatMap_microPinEvents_le _).trans (expand_length_le hvalid hi htab)
    by_cases hunk : ∃ p, i = .unk p
    · obtain ⟨p, rfl⟩ := hunk
      have hreset := resetPinEvents_length_ge (cfg := cfg) hvalid
      have hnone : fromLast (resetPinEvents par cfg pins) evs = none := by
        refine fromLast_short ?_
        rw [h.pinEvents_eq]
        exact Nat.lt_of_lt_of_le (Nat.mul_pos (by simp) (Nat.succ_pos _)) hreset
      rw [hnone] at hw
      cases hw
    · exact fromLast_eq_self hlen
        (h.isPinEvent_head (itemsMicros_isSetUp (expand_no_warn fun p hp => hunk ⟨p, hp⟩))) hw

end

end Sys2Proof.Machine
end

section
/-! A WRITE and a command as the sequencer runs them: the latched writes, and the nibble pairing lost,
kept and restored (40_transport.md R109; 70_reset_and_hazards.md R205). -/

namespace Sys2Proof.Machine

/-! ### A WRITE the sequencer runs -/

theorem writeMicros_isQuiet (par : Params) (pins : PinMap) (rs : Bool) (b : Byte) :
    ∀ m ∈ writeMicros par pins rs b, isQuiet m = true := by
  intro m hm
  obtain ⟨t, rfl⟩ | ⟨r, p, v, -, -, rfl⟩ := mem_writeMicros hm <;> rfl

/-- A block terminated between the strobes of a WRITE leaves the pairing unknown, or it was already (R205). -/
theorem pairingUnknown_of_midWrite {s : State} (hcut : s.cut = true)
    (h : ∀ w, s.sinceReset = some w → endsMidWrite s.pins w = true) : s.pairingUnknown = true := by
  refine Bool.eq_true_of_not_eq_false fun hknown => ?_
  obtain ⟨w, hw, -, hmid⟩ := pairingUnknown_eq_false.mp hknown
  exact Bool.false_ne_true ((hmid hcut).symm.trans (h w hw))

section
variable {s : State} {rs : Bool} {b : Byte} {rest : List Micro} (hfree : Undisturbed s)
  (hmode : s.mode = .init ∨ s.mode = .busy) (hvalid : pinMapValid s.par s.pins = true)
  (hseq : s.seq = writeMicros s.par s.pins rs b ++ rest)
include hfree hmode hvalid hseq

/-- A WRITE of the list runs to its end and latches its pair or Corrupt (R109, D34). -/
theorem runSteps_write :
    ∃ t evs, runSteps (writeMicros s.par s.pins rs b).length s = .next t ∧ t.trace = s.trace ++ evs
      ∧ latched s.pins evs = [if hasTransientIo evs then .corrupt else .pair rs b] := by
  obtain ⟨t, evs, hrun, -, htrace, hevs⟩ :=
    runSteps_emits hfree (fun _ => hmode) hseq (writeMicros_isQuiet s.par s.pins rs b)
  have hobserve := (observes_writeMicros hvalid rs b Probe.start).2 evs hevs
  exact ⟨t, evs, hrun, htrace, congrArg Prod.snd hobserve⟩

/-- A WRITE cut from the first rise of E to before its second fall leaves the pairing unknown (R205): the cut is inside
it, and it is too short to hold a RESET (log 23). -/
theorem terminate_within_write {n : Nat} (hlo : (writeMicros s.par s.pins rs b).length ≤ n + 12)
    (hhi : n + 2 ≤ (writeMicros s.par s.pins rs b).length) :
    ∃ t, runSteps n s = .next t ∧ (terminate t).pairingUnknown = true := by
  have hcut : s.seq = (writeMicros s.par s.pins rs b).take n ++ ((writeMicros s.par s.pins rs b).drop n ++ rest) := by
    rw [← List.append_assoc, List.take_append_drop, hseq]
  obtain ⟨t, evs, hrun, hframe, htrace, hevs⟩ := runSteps_emits hfree (fun _ => hmode) hcut
    fun m hm => writeMicros_isQuiet s.par s.pins rs b m (List.mem_of_mem_take hm)
  rw [List.length_take, Nat.min_eq_left (by omega)] at hrun
  refine ⟨t, hrun, pairingUnknown_of_midWrite rfl fun w hw => ?_⟩
  have hshort : fromLast (resetPinEvents s.par s.cfg s.pins) evs = none := by
    have hreset := resetPinEvents_length_ge (cfg := s.cfg) hvalid
    have hlength := writeMicros_length hvalid rs b
    have hevents : (pinEvents evs).length ≤ n := by
      rw [hevs.pinEvents_eq]
      exact (length_flatMap_microPinEvents_le _).trans (List.length_take_le _ _)
    exact fromLast_short (by omega)
  rw [State.sinceReset, terminate_par, terminate_cfg, terminate_pins, terminate_trace, hframe.par, hframe.cfg,
    hframe.pins, htrace] at hw
  obtain ⟨c, rfl⟩ := fromLast_append_none s.trace hshort hw
  rw [terminate_pins, hframe.pins]
  exact endsMidWrite_of_take hvalid hlo hhi hevs c

end

/-! ### The WRITEs of an expansion -/

theorem failedNext_of_no_failure {tr : List Event} (h : hasTransientIo tr = false) : failedNext tr = false := by
  cases tr with
  | nil => rfl
  | cons e rest => exact (Bool.or_eq_false_iff.mp h).1

/-- Where no SET failed, the WRITEs of an expansion are latched in order, whatever stood before (R109). -/
theorem latches_of_items {par : Params} {pins : PinMap} (hvalid : pinMapValid par pins = true) {items : List Item}
    {evs : List Event} (h : Emits (itemsMicros par pins items) evs) (hok : hasTransientIo evs = false) (k : Probe) :
    (observe pins k evs).2 = itemLatches items := by
  induction items generalizing evs k with
  | nil =>
    cases h
    rfl
  | cons it items ih =>
    obtain ⟨a, c, rfl, ha, hc⟩ := Emits.append_inv (q₁ := itemMicros par pins it) h
    rw [hasTransientIo_append, Bool.or_eq_false_iff] at hok
    obtain ⟨hoka, hokc⟩ := hok
    rw [observe_append pins k a (failedNext_of_no_failure hokc), ih hc hokc]
    cases it with
    | write rs b =>
      rw [(observes_writeMicros hvalid rs b k).2 a ha, hoka]
      rfl
    | wait t =>
      rw [emits_wait ha]
      rfl
    | warn w =>
      rw [emits_warn ha]
      rfl

/-! ### A command the block takes and runs -/

/-- `t` is where a command that starts in `s` ends, `evs` what it added to the trace. -/
structure CommandRun (s : State) (i : Instr) (t : State) (evs : List Event) : Prop where
  par : t.par = s.par
  cfg : t.cfg = s.cfg
  pins : t.pins = s.pins
  ended : t.cut = false
  trace : t.trace = s.trace ++ evs
  emits : Emits (itemsMicros s.par s.pins (expand s.par s.cfg s.cur i).items) evs

/-- In IDLE the step accepts the offered word (R154). -/
theorem step_of_command {s : State} {w : CommandWord} {rest : List HostOp} (hfree : Undisturbed s)
    (hmode : s.mode = .idle) (hoffers : s.offers = .command w :: rest) :
    step s = acceptCommand { s with offers := rest } (expand s.par s.cfg s.cur (decodeCommand w)) := by
  rw [step_undisturbed hfree]
  simp only [advance, hmode, pollHost, hoffers, acceptOffer]
  exact exec_command (decodeCommand_isCommand w) _

/-- After acceptance the expansion is to run, in BUSY where it is not empty, and nothing is emitted yet (R154, D33). -/
theorem step_accepts {s : State} {w : CommandWord} {rest : List HostOp} (hfree : Undisturbed s) (hmode : s.mode = .idle)
    (hoffers : s.offers = .command w :: rest) {q : List Micro}
    (hq : q = itemsMicros s.par s.pins (expand s.par s.cfg s.cur (decodeCommand w)).items) :
    ∃ u, step s = .next u ∧ u.seq = q ∧ (q ≠ [] → u.mode = .busy) ∧ Undisturbed u ∧ u.par = s.par ∧ u.cfg = s.cfg
      ∧ u.pins = s.pins ∧ u.trace = s.trace := by
  have hstep := step_of_command hfree hmode hoffers
  by_cases hitems : (expand s.par s.cfg s.cur (decodeCommand w)).items = []
  · rw [acceptCommand_done { s with offers := rest } _ hmode hitems] at hstep
    obtain rfl : q = [] := hq.trans (itemsMicros_eq_nil.mpr hitems)
    exact ⟨_, hstep, rfl, absurd rfl, hfree, rfl, rfl, rfl, rfl⟩
  · rw [acceptCommand_busy { s with offers := rest } _ hmode hitems] at hstep
    exact ⟨_, hstep, hq.symm, fun _ => rfl, hfree, rfl, rfl, rfl, rfl⟩

/-- One step of acceptance and one for each micro-operation run a command to its end. -/
theorem runSteps_command {s : State} {w : CommandWord} {rest : List HostOp} (hfree : Undisturbed s)
    (hmode : s.mode = .idle) (hoffers : s.offers = .command w :: rest) :
    ∃ t evs, CommandRun s (decodeCommand w) t evs
      ∧ runSteps (1 + (itemsMicros s.par s.pins (expand s.par s.cfg s.cur (decodeCommand w)).items).length) s
        = .next t := by
  obtain ⟨u, hstep, hseq, hbusy, hfreeu, hpar, hcfg, hpins, htrace⟩ := step_accepts hfree hmode hoffers rfl
  obtain ⟨t, evs, hrun, hframe, htracet, hevs⟩ := runSteps_emits hfreeu (fun hne => .inr (hbusy hne))
    (hseq.trans (List.append_nil _).symm) (List.all_eq_true.mp (itemsMicros_quiet s.par s.pins _))
  refine ⟨t, evs, ⟨hframe.par.trans hpar, hframe.cfg.trans hcfg, hframe.pins.trans hpins,
    hframe.cut.trans hfreeu.1, htracet.trans (congrArg (· ++ evs) htrace), hevs⟩, ?_⟩
  rw [Nat.add_comm, runSteps_succ _ hstep]
  exact hrun

section
variable {s t : State} {i : Instr} {evs : List Event} (h : CommandRun s i t evs)
include h

theorem CommandRun.sinceReset_eq :
    t.sinceReset = fromLast (resetPinEvents s.par s.cfg s.pins) (s.trace ++ evs) := by
  rw [State.sinceReset, h.par, h.cfg, h.pins, h.trace]

/-- Where a RESET has completed, the trace since then holds all of a later command's events. -/
theorem CommandRun.sinceReset_suffix (hi : i.isCommand = true) (hvalid : pinMapValid s.par s.pins = true)
    {w : List Event} (hw : t.sinceReset = some w) : ∃ c, w = c ++ evs := by
  rw [h.sinceReset_eq] at hw
  cases hown : fromLast (resetPinEvents s.par s.cfg s.pins) evs with
  | none => exact fromLast_append_none s.trace hown hw
  | some u =>
    rw [fromLast_append_some s.trace hown] at hw
    cases hw
    exact ⟨[], fromLast_command hvalid hi h.emits hown⟩

/-- A failed SET loses the pairing (R205). -/
theorem CommandRun.pairing_lost (hi : i.isCommand = true) (hvalid : pinMapValid s.par s.pins = true)
    (hfailed : hasTransientIo evs = true) : t.pairingUnknown = true := by
  cases hw : t.sinceReset with
  | none => simp [State.pairingUnknown, hw]
  | some w =>
    obtain ⟨c, rfl⟩ := h.sinceReset_suffix hi hvalid hw
    exact pairingUnknown_of_failed hw (by simp [hfailed])

/-- A known pairing is kept while no SET fails. -/
theorem CommandRun.pairing_kept (hknown : s.pairingUnknown = false) (hok : hasTransientIo evs = false) :
    t.pairingUnknown = false := by
  obtain ⟨w, hw, hwok, -⟩ := pairingUnknown_eq_false.mp hknown
  obtain ⟨u, hu, c, hc⟩ := fromLast_append evs hw
  have hsplit : hasTransientIo (c ++ u) = false := by rw [← hc, hasTransientIo_append, hwok, hok, Bool.or_false]
  rw [hasTransientIo_append, Bool.or_eq_false_iff] at hsplit
  exact pairingUnknown_eq_false.mpr ⟨u, h.sinceReset_eq.trans hu, hsplit.2, by simp [h.ended]⟩

end

/-- A RESET is the last completed one at its own end, so its own SETs alone decide the pairing (log 23). -/
theorem CommandRun.reset_since {s t : State} {evs : List Event} (h : CommandRun s .reset t evs)
    (hvalid : pinMapValid s.par s.pins = true) : t.sinceReset = some evs ∧ t.pairingUnknown = hasTransientIo evs := by
  have hwhole : fromLast (resetPinEvents s.par s.cfg s.pins) evs = some evs := by
    have hevents : pinEvents evs = resetPinEvents s.par s.cfg s.pins := h.emits.pinEvents_eq
    have hhead := h.emits.isPinEvent_head (itemsMicros_isSetUp (expand_no_warn (by simp)))
    cases evs with
    | nil =>
      have hlength := resetPinEvents_length_ge (cfg := s.cfg) hvalid
      rw [← hevents] at hlength
      exact absurd hlength (by simp [pinEvents])
    | cons e rest => exact fromLast_whole (hhead e rfl) hevents
  have hsince : t.sinceReset = some evs := h.sinceReset_eq.trans (fromLast_append_some s.trace hwhole)
  exact ⟨hsince, by simp [State.pairingUnknown, hsince, h.ended]⟩

end Sys2Proof.Machine

namespace Sys2Proof.Proofs

open Sys2Proof.Machine

/-- Settles O39: the observer over the parts of a WRITE (`runSteps_write`), and between its strobes
(`terminate_within_write`). -/
theorem writeLatchesItsPairOrCorrupt : Obligations.WriteLatchesItsPairOrCorrupt := by
  unfold Obligations.WriteLatchesItsPairOrCorrupt
  intro s rs b rest hfree hmode hvalid hseq
  exact ⟨runSteps_write hfree hmode hvalid hseq,
    fun _ hlo hhi => terminate_within_write hfree hmode hvalid hseq hlo hhi⟩

/-- Settles O43: the latched writes of an expansion none of whose SETs failed (`latches_of_items`), and the pairing
lost, kept and restored (`CommandRun`); a pairing known at the end says that no SET failed. -/
theorem commandLatchesItsWrites : Obligations.CommandLatchesItsWrites := by
  unfold Obligations.CommandLatchesItsWrites
  intro s w rest hfree hmode hoffers hvalid
  obtain ⟨t, evs, hcommand, hrun⟩ := runSteps_command hfree hmode hoffers
  have hlost : hasTransientIo evs = true → t.pairingUnknown = true :=
    hcommand.pairing_lost (decodeCommand_isCommand w) hvalid
  have hlatched : hasTransientIo evs = false →
      latched s.pins evs = itemLatches (expand s.par s.cfg s.cur (decodeCommand w)).items :=
    fun hok => latches_of_items hvalid hcommand.emits hok Probe.start
  refine ⟨t, evs, hrun, hcommand.trace, hlatched, fun hknown => hlatched ?_, hlost, hcommand.pairing_kept, ?_⟩
  · exact Bool.eq_false_iff.mpr fun hfailed => Bool.false_ne_true (hknown.symm.trans (hlost hfailed))
  · intro hreset
    rw [hreset] at hcommand
    exact hcommand.reset_since hvalid

end Sys2Proof.Proofs
end

section
/-! A command from its offer to its end (41_commands.md R130; 42_lifecycle.md R154): acceptance and the run of its
expansion as one lemma, `acceptCommand_completes`, whatever the device answers. -/

namespace Sys2Proof.Machine

/-- A command accepted in IDLE has run once each of its micro-operations had a step; one without any is complete in its
acceptance (D33). -/
theorem acceptCommand_completes {s : State} (x : Expansion) (hfree : Undisturbed s) (hmode : s.mode = .idle) :
    ∃ u t : State, acceptCommand s x = .next u
      ∧ runSteps (itemsMicros s.par s.pins x.items).length u = .next t
      ∧ CommandFrame { s with curNext := x.next } t ∧ t.mode = .idle ∧ t.cur = x.next ∧ t.seq = []
      ∧ pinEvents t.trace = pinEvents s.trace ++ (itemsMicros s.par s.pins x.items).flatMap microPinEvents := by
  by_cases hitems : x.items = []
  · have hnone : itemsMicros s.par s.pins x.items = [] := itemsMicros_eq_nil.mpr hitems
    rw [acceptCommand_done s x hmode hitems, hnone]
    exact ⟨_, _, rfl, rfl, { CommandFrame.refl s with curNext := rfl }, hmode, rfl, rfl, (List.append_nil _).symm⟩
  · rw [acceptCommand_busy s x hmode hitems]
    obtain ⟨t, hrun, hframe, hidle, hcur, hseq, htrace⟩ :=
      runSteps_quiet (s := { s with seq := itemsMicros s.par s.pins x.items, curNext := x.next, mode := .busy })
        hfree rfl rfl (mt itemsMicros_eq_nil.mp hitems) (itemsMicros_quiet s.par s.pins x.items)
    exact ⟨_, t, rfl, hrun, { hframe with }, hidle, hcur, hseq, htrace⟩

end Sys2Proof.Machine

namespace Sys2Proof.Proofs

open Sys2Proof.Machine

/-- Settles O42: the step takes the offered word (`step_of_command`), and the accepted command runs to its end
(`acceptCommand_completes`). -/
theorem offeredCommandCompletes : Obligations.OfferedCommandCompletes := by
  unfold Obligations.OfferedCommandCompletes
  intro s w rest hfree hmode hoffers x
  obtain ⟨u, t, haccept, hrun, hframe, hidle, hcur, hseq, htrace⟩ :=
    acceptCommand_completes (s := { s with offers := rest }) x hfree hmode
  have hstep : step s = .next u := (step_of_command hfree hmode hoffers).trans haccept
  refine ⟨t, ?_, hidle, hcur, hseq, hframe.offers, hframe.par, hframe.cfg, hframe.pins, hframe.held, hframe.fatalInfo,
    htrace⟩
  rw [Nat.add_comm, runSteps_succ _ hstep]
  exact hrun

end Sys2Proof.Proofs
end

section
/-! Two runs of a command over different answers (41_commands.md R130; 60_exceptions.md R172). `State.course` is a state
without what an answer can reach; a quiet micro-operation acts on it with no answer asked (`runSequencer_course`), so two
runs on one course stay on one. -/

namespace Sys2Proof.Machine

/-- The state with all that a device's answer to a SET can reach taken out: the levels, the warnings among the events,
and the answers themselves. -/
def State.course (s : State) : State :=
  { s with out := [], trace := pinEvents s.trace, answers := [], draws := 0 }

/-- What two states on one course share. -/
theorem fields_of_course {s u : State} (h : s.course = u.course) :
    s.mode = u.mode ∧ s.seq = u.seq ∧ s.cur = u.cur ∧ s.held = u.held ∧ s.fatalInfo = u.fatalInfo
      ∧ pinEvents s.trace = pinEvents u.trace ∧ s.termIn = u.termIn ∧ s.cut = u.cut :=
  ⟨(congrArg State.mode h :), (congrArg State.seq h :), (congrArg State.cur h :), (congrArg State.held h :),
    (congrArg State.fatalInfo h :), (congrArg State.trace h :), (congrArg State.termIn h :), (congrArg State.cut h :)⟩

/-- A quiet micro-operation adds its pin events to the course, whatever the answer. -/
theorem perform_course {m : Micro} (hm : isQuiet m = true) (s : State) :
    (perform m s).course = { s.course with trace := s.course.trace ++ microPinEvents m } := by
  obtain ⟨hpar, hcfg, hpins, hcur, hnext, hoffers, hterm, hcut⟩ := perform_frame m s
  obtain ⟨hmode, hseq, hheld, hfatal⟩ := perform_quiet hm s
  simp only [State.course, hpar, hcfg, hpins, hcur, hnext, hoffers, hterm, hcut, hmode, hseq, hheld, hfatal,
    perform_pinEvents m s]

/-- The end of a list reads and writes the course alone. -/
theorem finishIfEmpty_course (s : State) : (finishIfEmpty s).course = finishIfEmpty s.course := by
  rw [finishIfEmpty_eq, finishIfEmpty_eq, apply_ite State.course, apply_ite State.course]
  rfl

/-- A command's step, read on the course: the sequencer's step with no answer asked (R105). -/
theorem runSequencer_course {s : State} {m : Micro} {rest : List Micro} (hseq : s.seq = m :: rest)
    (hm : isQuiet m = true) :
    (runSequencer s).course
      = finishIfEmpty { s.course with seq := rest, trace := s.course.trace ++ microPinEvents m } := by
  rw [runSequencer_cons hseq, finishIfEmpty_course, perform_course hm]
  rfl

/-- The block runs a command, or has just ended it: its list holds only what a command may hold, and is run in BUSY. -/
structure RunsCommand (s : State) : Prop where
  free : Undisturbed s
  busy : s.seq ≠ [] → s.mode = .busy
  quiet : s.seq.all isQuiet = true

/-- Whether the block runs a command shows on its course. -/
theorem RunsCommand.of_course {s u : State} (h : RunsCommand s) (hcourse : s.course = u.course) : RunsCommand u := by
  obtain ⟨hmode, hseq, -, -, -, -, hterm, hcut⟩ := fields_of_course hcourse
  exact ⟨⟨hcut ▸ h.free.1, hterm ▸ h.free.2⟩, hmode ▸ hseq ▸ h.busy, hseq ▸ h.quiet⟩

/-- While there is a head to perform, the step performs it and the command runs on. -/
theorem RunsCommand.step_performs {s : State} {m : Micro} {rest : List Micro} (h : RunsCommand s)
    (hseq : s.seq = m :: rest) :
    step s = .next (runSequencer s) ∧ isQuiet m = true ∧ (runSequencer s).seq = rest
      ∧ RunsCommand (runSequencer s) := by
  have hmode : s.mode = .busy := h.busy (hseq ▸ List.cons_ne_nil m rest)
  obtain ⟨hm, hrest⟩ : isQuiet m = true ∧ rest.all isQuiet = true := by simpa [hseq] using h.quiet
  obtain ⟨hframe, hleft, -, hbusy, -⟩ := runSequencer_quiet hmode hseq hm
  exact ⟨step_running h.free (.inr hmode), hm, hleft,
    ⟨hframe.undisturbed h.free, hleft ▸ hbusy, hleft ▸ hrest⟩⟩

/-- Two commands on one course stay on one course up to the end of their list (R130, R172). -/
theorem runSteps_course {k : Nat} {s u : State} (hs : RunsCommand s) (hk : k ≤ s.seq.length)
    (hcourse : s.course = u.course) :
    ∃ s' u' : State, runSteps k s = .next s' ∧ runSteps k u = .next u' ∧ s'.course = u'.course := by
  induction k generalizing s u with
  | zero => exact ⟨s, u, rfl, rfl, hcourse⟩
  | succ k ih =>
    obtain ⟨m, rest, hseq⟩ := List.exists_cons_of_length_pos (Nat.zero_lt_of_lt hk)
    obtain ⟨-, hsame, -⟩ := fields_of_course hcourse
    have hsequ : u.seq = m :: rest := hsame.symm.trans hseq
    obtain ⟨hstep, hm, hleft, hnext⟩ := hs.step_performs hseq
    obtain ⟨hstepu, -⟩ := (hs.of_course hcourse).step_performs hsequ
    have hcourse' : (runSequencer s).course = (runSequencer u).course := by
      rw [runSequencer_course hseq hm, runSequencer_course hsequ hm, hcourse]
    have hk' : k ≤ (runSequencer s).seq.length := by
      rw [hseq] at hk
      rw [hleft]
      exact Nat.le_of_succ_le_succ hk
    rw [runSteps_succ k hstep, runSteps_succ k hstepu]
    exact ih hnext hk' hcourse'

end Sys2Proof.Machine

namespace Sys2Proof.Proofs

open Sys2Proof.Machine

/-- Settles O44: the two states differ in nothing that `State.course` keeps, and the runs stay on one course
(`runSteps_course`). -/
theorem answersNeverSteerACommand : Obligations.AnswersNeverSteerACommand := by
  unfold Obligations.AnswersNeverSteerACommand
  intro s k as bs m n hfree hmode hquiet hk
  have hruns : RunsCommand { s with answers := as, draws := m } := ⟨hfree, fun _ => hmode, hquiet⟩
  obtain ⟨t, u, hrunt, hrunu, hcourse⟩ := runSteps_course (u := { s with answers := bs, draws := n }) hruns hk rfl
  obtain ⟨hmode', hseq, hcur, hheld, hfatal, htrace, -, -⟩ := fields_of_course hcourse
  exact ⟨t, u, hrunt, hrunu, hmode', hseq, hcur, hheld, hfatal, htrace⟩

end Sys2Proof.Proofs
end

section
/-! The rules of the ten commands (41_commands.md R120 to R129). Each rule states its expansion; what acceptance makes of
an expansion is said once, in `exec_busy` and `exec_done`. -/

namespace Sys2Proof.Machine

/-! ### Acceptance, by the expansion -/

section
variable {s : State} {i : Instr} {items : List Item} {next : Cursor}

/-- A command with something to run is accepted into BUSY (R154). -/
theorem exec_busy (hi : i.isCommand = true) (hmode : s.mode = .idle)
    (hx : expand s.par s.cfg s.cur i = { items := items, next := next }) (hne : items ≠ []) :
    exec i s = .next { s with seq := itemsMicros s.par s.pins items, curNext := next, mode := .busy } := by
  rw [exec_command hi, hx, acceptCommand_busy s _ hmode hne]

/-- A command with nothing to run and no move completes in its acceptance (D33). -/
theorem exec_done (hi : i.isCommand = true) (hmode : s.mode = .idle)
    (hx : expand s.par s.cfg s.cur i = { items := [], next := s.cur }) :
    exec i s = .next { s with seq := [], curNext := s.cur } := by
  rw [exec_command hi, hx, acceptCommand_done s _ hmode rfl]

end

/-! ### The expansions with a case of their own -/

section
variable {par : Params} {cfg : DisplayConfig} {cur : Cursor}

theorem flashItems_ne_nil : flashItems par cfg ≠ [] := List.cons_ne_nil _ _

theorem expandBackspace_left (h : 0 < cur.col) :
    expandBackspace par cfg cur
      = { items := [.write false par.lcdOp.cursorLeft], next := { cur with col := cur.col - 1 } } :=
  if_pos h

theorem expandBackspace_flash (h : cur.col = 0) :
    expandBackspace par cfg cur = { items := flashItems par cfg, next := cur } :=
  if_neg (Nat.not_lt.mpr h.le)

theorem newlineCursor_nextRow (h : cur.row < cfg.lines - 1) :
    newlineCursor cfg cur = { row := cur.row + 1, col := 0 } := if_pos h

theorem newlineCursor_park (h : ¬ cur.row < cfg.lines - 1) :
    newlineCursor cfg cur = { row := cur.row, col := cfg.cols } := if_neg h

theorem expandNewline_of_cursor {c : Cursor} (h : newlineCursor cfg cur = c) :
    expandNewline par cfg cur = { items := [.write false (addressByte par cfg c)], next := c } := by
  rw [expandNewline, h]

theorem expandTab_of_count {n : Nat} (h : tabCount par cfg cur = n) :
    expandTab par cfg cur
      = { items := List.replicate n (.write true par.space), next := { cur with col := cur.col + n } } := by
  rw [expandTab, h]

theorem expandChar_written (c : Byte) (h : cur.col < cfg.cols) :
    expandChar cfg cur c = { items := [.write true c], next := { cur with col := cur.col + 1 } } := if_pos h

theorem expandChar_dropped (c : Byte) (h : ¬ cur.col < cfg.cols) :
    expandChar cfg cur c = { items := [], next := cur } := if_neg h

/-- Three configured function sets and the control writes, written out (R120, D9, D11). -/
theorem expandReset_of_configured (h : par.lcdOp.functionSetSeq = [.configured, .configured, .configured]) :
    expandReset par cfg =
      { items := [.write false (configFunctionSet par cfg), .wait par.timing.functionSet,
          .write false (configFunctionSet par cfg), .wait par.timing.functionSet,
          .write false (configFunctionSet par cfg), .wait par.timing.functionSet]
          ++ controlItems par cfg ++ clearItems par
        next := cursorHome } := by
  rw [expandReset, functionSetItems, h]
  rfl

/-! ### The configured bytes of the default LCD_OP -/

theorem flagBit_eq_ite (v : Bool) (place : Nat) : flagBit v place = if v then 1#8 <<< place else 0#8 := by
  cases v
  · exact BitVec.zero_shiftLeft _
  · rfl

/-- DISPLAY_ON of the default LCD_OP (R81; D10, log 14). -/
theorem configDisplayOn_default (h : par.lcdOp = specLcdOp) :
    configDisplayOn par cfg
      = 0x0C#8 ||| (if cfg.cursorEn then 0x02#8 else 0x00#8) ||| (if cfg.blinkEn then 0x01#8 else 0x00#8) := by
  rw [configDisplayOn, displayOnByte, h, flagBit_eq_ite, flagBit_eq_ite]
  rfl

/-- FUNCTION_SET of the default LCD_OP (R82; D9, D10, log 14). -/
theorem configFunctionSet_default (h : par.lcdOp = specLcdOp) :
    configFunctionSet par cfg
      = 0x20#8 ||| (if 1 < cfg.lines then 0x08#8 else 0x00#8) ||| (if cfg.largeFont then 0x04#8 else 0x00#8) := by
  rw [configFunctionSet, functionSetByte, h, flagBit_eq_ite, flagBit_eq_ite]
  simp only [decide_eq_true_eq]
  rfl

/-! ### TAB's stops -/

/-- The next tab stop is strictly above the column and at most one stop's width above it (R126, D14). -/
theorem nextStop_bounds (hstop : 0 < par.tabStop) (col : Nat) :
    col < nextStop par col ∧ nextStop par col ≤ col + par.tabStop := by
  have hbelow : col / par.tabStop * par.tabStop ≤ col := Nat.div_mul_le_self col par.tabStop
  have habove : col < par.tabStop * (col / par.tabStop + 1) := Nat.lt_mul_div_succ col hstop
  rw [nextStop]
  refine ⟨Nat.mul_comm .. ▸ habove, ?_⟩
  rw [Nat.succ_mul]
  exact Nat.add_le_add_right hbelow _

/-- A column on a tab stop goes a full stop on (D14). -/
theorem nextStop_of_stop {col : Nat} (hcol : par.tabStop ∣ col) :
    nextStop par col = col + par.tabStop := by
  rw [nextStop, Nat.succ_mul, Nat.div_mul_cancel hcol]

theorem dvd_nextStop (par : Params) (col : Nat) : par.tabStop ∣ nextStop par col := Nat.dvd_mul_left _ _

/-- TAB reaches the next stop, or COLS where that comes first. -/
theorem col_add_tabCount (hstop : 0 < par.tabStop) (hcol : cur.col ≤ cfg.cols) :
    cur.col + tabCount par cfg cur = min (nextStop par cur.col) cfg.cols := by
  obtain ⟨habove, -⟩ := nextStop_bounds hstop cur.col
  exact Nat.add_sub_of_le (le_min habove.le hcol)

end

/-! ### UNKNOWN -/

/-- An unrecognised code's word is its kind bit above the code (R70, R72). -/
theorem control_word_eq_packCommand (p : Byte) : 0x100#9 ||| p.setWidth 9 = packCommand true p := by
  have hp : p.setWidth 9 = BitVec.cons false p := BitVec.setWidth_eq_append (by decide)
  have hkind : 0x100#9 = BitVec.cons true 0#8 := rfl
  rw [hp, hkind, BitVec.cons_or_cons, BitVec.zero_or, Bool.true_or, packCommand_eq_cons]

theorem decodeCommand_unrecognised {p : Byte} (h : 8 ≤ p.toNat) :
    decodeCommand (0x100#9 ||| p.setWidth 9) = .unk p := by
  have hwellFormed : (Instr.unk p).wellFormed = true := decide_eq_true h
  exact decodeCommand_of_encode hwellFormed (congrArg Encoded.cw9 (control_word_eq_packCommand p).symm)

/-- A lone WARN is emitted and the command ends there (R129, R173). -/
theorem step_lone_warn {s : State} (w : WarnInfo) (hfree : Undisturbed s) (hmode : s.mode = .busy)
    (hseq : s.seq = [.warn w]) :
    step s = .next { s with seq := [], trace := s.trace ++ [.warn w], cur := s.curNext, mode := .idle } := by
  rw [step_running hfree (.inr hmode), runSequencer_cons hseq]
  exact congrArg _ (finishIfEmpty_busy rfl hmode)

end Sys2Proof.Machine

namespace Sys2Proof.Proofs

open Sys2Proof.Machine

/-- Settles O30: TAB goes to the smaller of the next stop and COLS (`col_add_tabCount`), and the next stop is at most
eight columns on (`nextStop_bounds`). -/
theorem tabReachesTheNextStop : Obligations.TabReachesTheNextStop := by
  unfold Obligations.TabReachesTheNextStop
  intro cfg cur hcol
  have hstop : 0 < specParams.tabStop := by decide
  have hreach := col_add_tabCount (cur := cur) hstop hcol
  obtain ⟨habove, hbelow⟩ := nextStop_bounds hstop cur.col
  change nextStop specParams cur.col ≤ cur.col + 8 at hbelow
  refine ⟨by omega, by omega, ?_, fun hmod hroom => ?_⟩
  · rw [hreach]
    obtain hclip | hclip := Nat.le_total (nextStop specParams cur.col) cfg.cols
    · rw [Nat.min_eq_left hclip]
      exact .inl (Nat.mod_eq_zero_of_dvd (dvd_nextStop specParams cur.col))
    · exact .inr (Nat.min_eq_right hclip)
  · have hfull : nextStop specParams cur.col = cur.col + 8 := nextStop_of_stop (Nat.dvd_of_mod_eq_zero hmod)
    omega

/-- Settles O9: the expansion written out (`expandReset_of_configured`), and the two configured bytes of the default
LCD_OP. -/
theorem resetIsAccepted : Obligations.ResetIsAccepted := by
  unfold Obligations.ResetIsAccepted
  refine ⟨fun s hmode hseq => ?_, fun par cfg hop => ⟨configDisplayOn_default hop, configFunctionSet_default hop⟩⟩
  exact exec_busy rfl hmode (expandReset_of_configured hseq) (List.cons_ne_nil _ _)

/-- Settles O10: the expansion of CLEAR through `exec_busy`. -/
theorem clearIsAccepted : Obligations.ClearIsAccepted := by
  unfold Obligations.ClearIsAccepted
  exact ⟨rfl, rfl, fun s hmode => exec_busy rfl hmode rfl (List.cons_ne_nil _ _)⟩

/-- Settles O11: the two expansions of BACKSPACE, by the column. -/
theorem backspaceIsAccepted : Obligations.BackspaceIsAccepted := by
  unfold Obligations.BackspaceIsAccepted
  intro s hmode
  exact ⟨fun hcol => exec_busy rfl hmode (expandBackspace_left hcol) (List.cons_ne_nil _ _),
    fun hcol => exec_busy rfl hmode (expandBackspace_flash hcol) flashItems_ne_nil⟩

/-- Settles O12: the two cursors NEWLINE goes to, by the row. -/
theorem newlineIsAccepted : Obligations.NewlineIsAccepted := by
  unfold Obligations.NewlineIsAccepted
  intro s hmode
  refine ⟨fun hrow => ?_, fun hrow => ?_⟩
  · exact exec_busy rfl hmode (expandNewline_of_cursor (newlineCursor_nextRow hrow)) (List.cons_ne_nil _ _)
  · exact exec_busy rfl hmode (expandNewline_of_cursor (newlineCursor_park hrow)) (List.cons_ne_nil _ _)

/-- Settles O13: the expansion of CARRIAGE_RETURN through `exec_busy`. -/
theorem carriageReturnIsAccepted : Obligations.CarriageReturnIsAccepted := by
  unfold Obligations.CarriageReturnIsAccepted
  intro s hmode
  exact exec_busy rfl hmode rfl (List.cons_ne_nil _ _)

/-- Settles O14: the expansion of HOME through `exec_busy`. -/
theorem homeIsAccepted : Obligations.HomeIsAccepted := by
  unfold Obligations.HomeIsAccepted
  exact ⟨rfl, rfl, fun s hmode => exec_busy rfl hmode rfl (List.cons_ne_nil _ _)⟩

/-- Settles O15: the statement's count is `tabCount`; the cases are whether there is a space to write (D33). -/
theorem tabIsAccepted : Obligations.TabIsAccepted := by
  unfold Obligations.TabIsAccepted
  intro s n hmode hn
  have hexpand := expandTab_of_count (par := s.par) (cfg := s.cfg) (cur := s.cur) hn.symm
  refine ⟨fun hpos => exec_busy rfl hmode hexpand ?_, fun hzero => ?_⟩
  · exact mt (List.replicate_eq_nil_iff _).mp hpos.ne'
  · subst hzero
    exact exec_done rfl hmode hexpand

/-- Settles O16: the expansion of FLASH through `exec_busy`, and DISPLAY_ON of the default LCD_OP. -/
theorem flashIsAccepted : Obligations.FlashIsAccepted := by
  unfold Obligations.FlashIsAccepted
  refine ⟨fun s hmode => exec_busy rfl hmode rfl flashItems_ne_nil, fun par cfg hop => ⟨?_, configDisplayOn_default hop⟩⟩
  rw [hop]
  rfl

/-- Settles O17: the two expansions of CHAR, by the column. -/
theorem characterIsAccepted : Obligations.CharacterIsAccepted := by
  unfold Obligations.CharacterIsAccepted
  intro s c hmode
  exact ⟨fun hcol => exec_busy rfl hmode (expandChar_written c hcol) (List.cons_ne_nil _ _),
    fun hcol => exec_done rfl hmode (expandChar_dropped c hcol)⟩

/-- Settles O18: the word's code is unrecognised, the expansion is the one WARN, and its step emits it
(`step_lone_warn`). -/
theorem unknownCodeOnlyWarns : Obligations.UnknownCodeOnlyWarns := by
  unfold Obligations.UnknownCodeOnlyWarns
  intro p hp
  refine ⟨decodeCommand_unrecognised hp, fun s hfree hmode => ⟨?_, ?_⟩⟩
  · exact exec_busy rfl hmode rfl (List.cons_ne_nil _ _)
  · have hstep := step_lone_warn
      (s := { s with seq := [.warn (.unknownCommand p)], curNext := s.cur, mode := .busy }) (.unknownCommand p) hfree
      rfl rfl
    rw [hstep, hmode]

end Sys2Proof.Proofs
end

section
/-! The block at a step boundary (42_lifecycle.md R150 to R157): what it takes from the host and when, the host's
termination, and how a run stands. Each branch of the step has its equation here. -/

namespace Sys2Proof.Machine

/-! ### The block takes what the host offers -/

theorem advance_of_offer {s : State} {op : HostOp} {rest : List HostOp} (hinit : s.mode ≠ .init)
    (hbusy : s.mode ≠ .busy) (hoffers : s.offers = op :: rest) :
    advance s = acceptOffer op { s with offers := rest } := by
  cases hmode : s.mode with
  | init => exact absurd hmode hinit
  | busy => exact absurd hmode hbusy
  | uninit | idle | fatal | off => simp only [advance, hmode, pollHost, hoffers]

/-- Where no list runs, the step takes the oldest offer, with one step less to go before a termination that is set
(R153, R154). -/
theorem step_of_offer {s : State} {op : HostOp} {rest : List HostOp} (hcut : s.cut = false) (hterm : s.termIn ≠ some 0)
    (hinit : s.mode ≠ .init) (hbusy : s.mode ≠ .busy) (hoffers : s.offers = op :: rest) :
    step s = acceptOffer op { s with offers := rest, termIn := s.termIn.map (· - 1) } := by
  cases hn : s.termIn with
  | none =>
    have hstep : step s = advance { s with termIn := none } := by rw [step_undisturbed ⟨hcut, hn⟩, ← hn]
    exact hstep.trans (advance_of_offer (s := { s with termIn := none }) hinit hbusy hoffers)
  | some n =>
    obtain ⟨k, rfl⟩ := Nat.exists_eq_succ_of_ne_zero fun hzero => hterm (hn.trans (congrArg some hzero))
    have hstep : step s = advance { s with termIn := some k } := by simp [step, stepBlock, hcut, hn]
    exact hstep.trans (advance_of_offer (s := { s with termIn := some k }) hinit hbusy hoffers)

/-- The step of an undisturbed block takes the oldest offer. -/
theorem step_takes_offer {s : State} {op : HostOp} {rest : List HostOp} (hfree : Undisturbed s)
    (hinit : s.mode ≠ .init) (hbusy : s.mode ≠ .busy) (hoffers : s.offers = op :: rest) :
    step s = acceptOffer op { s with offers := rest } :=
  (step_undisturbed hfree).trans (advance_of_offer hinit hbusy hoffers)

/-- With nothing offered UNINIT and IDLE wait (R154). -/
theorem step_waits {s : State} (hfree : Undisturbed s) (hoffers : s.offers = [])
    (hmode : s.mode = .uninit ∨ s.mode = .idle) : step s = .next s := by
  rw [step_undisturbed hfree]
  rcases hmode with hmode | hmode <;> simp only [advance, hmode, pollHost, hoffers]

/-- With nothing offered FATAL takes no step (R176). -/
theorem step_fatal {s : State} (hfree : Undisturbed s) (hoffers : s.offers = []) (hmode : s.mode = .fatal) :
    step s = .fault .failed := by
  rw [step_undisturbed hfree]
  simp only [advance, hmode, pollHost, hoffers]

/-- With nothing offered OFF takes no step (R156). -/
theorem step_off {s : State} (hfree : Undisturbed s) (hoffers : s.offers = []) (hmode : s.mode = .off) :
    step s = .fault .released := by
  rw [step_undisturbed hfree]
  simp only [advance, hmode, pollHost, hoffers]

/-! ### Each offer in its mode -/

/-- INITIALIZE with a valid configuration and pin map is accepted in UNINIT (R150). -/
theorem acceptStart_valid {s : State} (dev : Device) {cfg : DisplayConfig} {pins : PinMap} (hmode : s.mode = .uninit)
    (hcfg : configValid s.par cfg = true) (hpins : pinMapValid s.par pins = true) :
    acceptStart dev cfg pins s
      = .next { s with cfg := cfg, pins := pins, mode := .init, seq := startMicros s.par dev cfg pins,
                       curNext := cursorHome } := by
  simp [acceptStart, hmode, hcfg, hpins]

/-- An offered INITIALIZE is accepted in one step (R150). -/
theorem step_of_start {s : State} {dev : Device} {cfg : DisplayConfig} {pins : PinMap} {rest : List HostOp}
    (hfree : Undisturbed s) (hmode : s.mode = .uninit) (hoffers : s.offers = .start dev cfg pins :: rest)
    (hcfg : configValid s.par cfg = true) (hpins : pinMapValid s.par pins = true) :
    step s = .next { s with cfg := cfg, pins := pins, mode := .init, seq := startMicros s.par dev cfg pins,
                            curNext := cursorHome, offers := rest } := by
  rw [step_takes_offer hfree (by simp [hmode]) (by simp [hmode]) hoffers]
  exact acceptStart_valid (s := { s with offers := rest }) dev hmode hcfg hpins

/-- The set-up of a role, by whether it is bound (R102, R150). -/
theorem setUpRole_eq (pins : PinMap) (r : Role) :
    setUpRole pins r = match lineOf pins r with
      | some p => [.cfgPin p, .setPin p false]
      | none => [] := by
  cases hline : lineOf pins r with
  | some p => simp only [setUpRole, cfgRole, setRole, hline, List.cons_append, List.nil_append]
  | none => simp only [setUpRole, cfgRole, setRole, hline, List.append_nil]

/-- The backlight default, by whether BL is bound (D7, D16). -/
theorem backlightDefault_eq (cfg : DisplayConfig) (pins : PinMap) :
    backlightDefault cfg pins = match pins.backlight with
      | some p => if cfg.blDefaultOn then [.setPin p true] else []
      | none => [] := by
  cases hline : pins.backlight with
  | some p => rw [backlightDefault, setRole_of_bound (r := .backlight) hline]
  | none => rw [backlightDefault, setRole_of_unbound (r := .backlight) hline, ite_self]

theorem acceptShutdown_idle {s : State} (hmode : s.mode = .idle) :
    acceptShutdown s = .next { s with trace := s.trace ++ [.release], held := false, mode := .off, seq := [] } := by
  simp [acceptShutdown, hmode, performRelease, State.emit, State.setHeld]

theorem acceptShutdown_not_idle {s : State} (hmode : s.mode ≠ .idle) :
    acceptShutdown s = .refused (.notIdle s.mode) := if_pos hmode

/-- Outside IDLE no command is accepted (R154, I9). -/
theorem acceptCommand_not_idle {s : State} (x : Expansion) (hmode : s.mode ≠ .idle) :
    acceptCommand s x = .refused (.notReady s.mode) := by
  cases hm : s.mode with
  | idle => exact absurd hm hmode
  | uninit | init | busy | fatal | off => simp only [acceptCommand, hm]

/-! ### While a list runs -/

theorem finishSequence_offers (s : State) : (finishSequence s).offers = s.offers := by
  unfold finishSequence
  split <;> rfl

/-- A step of the sequencer leaves the offers with the host. -/
theorem runSequencer_offers (s : State) : (runSequencer s).offers = s.offers := by
  cases hseq : s.seq with
  | nil =>
    have hrun : runSequencer s = finishSequence s := by simp only [runSequencer, hseq]
    rw [hrun, finishSequence_offers]
  | cons m rest =>
    obtain ⟨-, -, -, -, -, hoffers, -, -⟩ := perform_frame m (s.setSeq rest)
    rw [runSequencer_cons hseq, (finishIfEmpty_commandFrame _).offers, hoffers, setSeq_offers]

/-- In INIT and BUSY the block's own move is its sequencer's (R105, R154). -/
theorem advance_offers_running {s t : State} (hmode : s.mode = .init ∨ s.mode = .busy) (h : advance s = .next t) :
    t.offers = s.offers := by
  obtain ⟨-, rfl⟩ | ⟨hrest, -, -⟩ | ⟨_, _, -, hinit, hbusy, -⟩ := advance_cases h
  · exact runSequencer_offers s
  · rcases hmode with hm | hm <;> simp [hm] at hrest
  · exact absurd hmode (not_or.mpr ⟨hinit, hbusy⟩)

theorem step_offers_running {s t : State} (hmode : s.mode = .init ∨ s.mode = .busy) (h : step s = .next t) :
    t.offers = s.offers := by
  obtain ⟨-, ⟨-, rfl⟩ | ⟨n, -, hadvance⟩ | ⟨-, hadvance⟩⟩ := step_cases h
  · exact terminate_offers s
  · exact advance_offers_running (s := { s with termIn := some n }) hmode hadvance
  · exact advance_offers_running hmode hadvance

/-! ### An instruction laid for the next step -/

@[simp] theorem makeReady_mode (s : State) : (makeReady s).mode = .idle := by
  unfold makeReady
  split
  · next hready => exact beq_iff_eq.mp hready
  · rfl

@[simp] theorem makeReady_cut (s : State) : (makeReady s).cut = false := by
  unfold makeReady
  split <;> rfl

@[simp] theorem makeReady_termIn (s : State) : (makeReady s).termIn = none := by
  unfold makeReady
  split <;> rfl

@[simp] theorem makeReady_offers (s : State) : (makeReady s).offers = s.offers := by
  unfold makeReady
  split <;> rfl

theorem readTableWord_command (w : CommandWord) : readTableWord 16 w.toNat = .ok (.cw9 w) := by
  rw [readTableWord, if_neg (by decide), if_pos w.isLt, BitVec.ofNat_toNat, BitVec.setWidth_eq]

theorem readTableWord_controller (b : Byte) : readTableWord 8 b.toNat = .ok (.lcd8 b) := by
  rw [readTableWord, if_pos (by decide), if_pos b.isLt, BitVec.ofNat_toNat, BitVec.setWidth_eq]

theorem withFetchWord_command (s : State) (w : CommandWord) :
    s.withFetchWord 16 w.toNat = { makeReady s with offers := .command w :: s.offers } := by
  simp only [State.withFetchWord, readTableWord_command, layInstruction]

/-- A laid command word is the oldest offer of a block in IDLE, which the step takes (log 4). -/
theorem step_withFetchWord_command (s : State) (w : CommandWord) :
    step (s.withFetchWord 16 w.toNat) = exec (decodeCommand w) (makeReady s) := by
  have hready : { makeReady s with offers := s.offers } = makeReady s := by rw [← makeReady_offers s]
  rw [withFetchWord_command]
  refine (step_takes_offer (op := .command w) (rest := s.offers) ?_ ?_ ?_ ?_).trans (congrArg (acceptOffer _) hready)
  · exact ⟨makeReady_cut s, makeReady_termIn s⟩
  · simp
  · simp
  · rfl

/-- A laid byte has been issued to a block that runs nothing else (log 7). -/
theorem withFetchWord_controller {s t : State} {b : Byte} {i : Instr} (hread : decodeController b = .ok i)
    (hissued : exec i (makeRunning s) = .next t) : s.withFetchWord 8 b.toNat = t := by
  simp only [State.withFetchWord, readTableWord_controller, layInstruction, hread, hissued]

/-! ### How a run stands -/

theorem wordOffered_eq_false_iff {s : State} : s.wordOffered = false ↔ ∀ w, HostOp.command w ∉ s.offers := by
  have hword : ∀ op, isWordOffer op = false ↔ ∀ w, op ≠ .command w := by
    intro op
    cases op <;> simp [isWordOffer]
  rw [State.wordOffered, List.any_eq_false]
  simp only [Bool.not_eq_true, hword]
  exact ⟨fun h w hw => h _ hw w rfl, fun h op hop w heq => h w (heq ▸ hop)⟩

theorem runStatus_of_cut {s : State} (h : s.cut = true) : s.runStatus = .cut := if_pos h

end Sys2Proof.Machine

namespace Sys2Proof.Proofs

open Sys2Proof.Machine

/-- Settles O8: while the list runs the only moves are the sequencer's and the termination (`step_offers_running`), and
exec of a command is its acceptance, refused outside IDLE. -/
theorem commandsRunInIdleOnly : Obligations.CommandsRunInIdleOnly := by
  unfold Obligations.CommandsRunInIdleOnly
  refine ⟨fun _ _ => step_offers_running, fun s i hi hmode => ?_⟩
  rw [exec_command hi, acceptCommand_not_idle _ hmode]

/-- Settles O5: in IDLE the step takes the oldest offer (`step_of_offer`), here a word. -/
theorem stepRunsTheOfferedWord : Obligations.StepRunsTheOfferedWord := by
  unfold Obligations.StepRunsTheOfferedWord
  intro s w rest hcut hterm hmode hoffers
  exact step_of_offer hcut hterm (by simp [hmode]) (by simp [hmode]) hoffers

/-- Settles O6: a laid word is offered first in IDLE; a laid byte has been issued in BUSY, where the sequencer runs. -/
theorem laidInstructionRunsNext : Obligations.LaidInstructionRunsNext := by
  unfold Obligations.LaidInstructionRunsNext
  refine ⟨step_withFetchWord_command, fun s b i hread => ?_⟩
  have hi : i.isCommand = false := isCommand_eq_false_iff.mpr ⟨b, encode_of_decodeController hread⟩
  obtain ⟨c, hissue⟩ := exec_controller hi (makeRunning s)
  have hissued := hissue.trans (issueInstruction_running (makeRunning s) c (.inr rfl))
  rw [withFetchWord_controller hread hissued]
  exact ⟨hissued, step_running ⟨makeReady_cut s, makeReady_termIn s⟩ (.inr rfl)⟩

/-- Settles O48: an offered INITIALIZE is accepted (`step_of_start`), and its list role by role is the statement's. -/
theorem startIsAccepted : Obligations.StartIsAccepted := by
  unfold Obligations.StartIsAccepted
  intro s dev cfg pins rest hfree hmode hoffers hcfg hpins
  rw [step_of_start hfree hmode hoffers hcfg hpins, startMicros, funext (setUpRole_eq pins), backlightDefault_eq]
  rfl

/-- Settles O51: the step takes the offered SHUTDOWN, which IDLE accepts and every other mode refuses. -/
theorem shutdownReleases : Obligations.ShutdownReleases := by
  unfold Obligations.ShutdownReleases
  refine ⟨fun s rest hfree hmode hoffers => ?_, fun s hmode => acceptShutdown_not_idle hmode⟩
  rw [step_takes_offer hfree (by simp [hmode]) (by simp [hmode]) hoffers]
  exact acceptShutdown_idle (s := { s with offers := rest }) hmode

/-- Settles O52: the termination comes before anything the block does, and its flag before the termination. -/
theorem terminationCutsTheBlock : Obligations.TerminationCutsTheBlock := by
  unfold Obligations.TerminationCutsTheBlock
  refine fun s => ⟨fun hcut hterm => ?_, fun hcut => if_pos hcut, runStatus_of_cut⟩
  simp only [step, stepBlock, hcut, hterm]
  rfl

/-- Settles O53: the four modes that take offers, with none to take. -/
theorem blockWaitsForTheHost : Obligations.BlockWaitsForTheHost := by
  unfold Obligations.BlockWaitsForTheHost
  exact fun s hfree hoffers => ⟨step_waits hfree hoffers, step_fatal hfree hoffers, step_off hfree hoffers⟩

/-- Settles O54: a terminated run stands as cut and any other by its mode, in IDLE by whether a word is offered. -/
theorem runStandings : Obligations.RunStandings := by
  unfold Obligations.RunStandings
  intro s
  cases hcut : s.cut with
  | true => simp [runStatus_of_cut hcut]
  | false =>
    rw [← wordOffered_eq_false_iff]
    cases hmode : s.mode with
    | idle => cases hword : s.wordOffered <;> simp [State.runStatus, hcut, hmode, hword]
    | uninit | init | busy | fatal | off => simp [State.runStatus, hcut, hmode]

end Sys2Proof.Proofs
end

section
/-! INITIALIZE from its offer to IDLE (42_lifecycle.md R150, R151). With every answer ok a list of set-up steps has one
course, which `runSteps_acknowledged` says as a whole next state; the levels it leaves are those of `driven`, read role
by role. -/

namespace Sys2Proof.Machine

/-! ### A list of set-up steps, every answer ok -/

/-- The levels after a list of micro-operations none of whose SETs failed (R101). -/
def driven : List Micro → List (Line × Bool) → List (Line × Bool)
  | [], out => out
  | .setPin p v :: rest, out => driven rest (putLine out p v)
  | .openDev _ :: rest, out => driven rest out
  | .cfgPin _ :: rest, out => driven rest out
  | .wait _ :: rest, out => driven rest out
  | .release :: rest, out => driven rest out
  | .warn _ :: rest, out => driven rest out
  | .fatal _ :: rest, out => driven rest out

theorem driven_cons (m : Micro) (q : List Micro) (out : List (Line × Bool)) :
    driven (m :: q) out = driven q (driven [m] out) := by
  cases m <;> rfl

@[simp] theorem driven_append (q₁ q₂ : List Micro) (out : List (Line × Bool)) :
    driven (q₁ ++ q₂) out = driven q₂ (driven q₁ out) := by
  induction q₁ generalizing out with
  | nil => rfl
  | cons m q₁ ih => rw [List.cons_append, driven_cons, ih, ← driven_cons]

/-- The events of a list none of whose SETs failed warn of none. -/
theorem hasTransientIo_flatMap_microPinEvents (q : List Micro) : hasTransientIo (q.flatMap microPinEvents) = false := by
  induction q with
  | nil => rfl
  | cons m q ih =>
    have hm : hasTransientIo (microPinEvents m) = false := by cases m <;> rfl
    rw [List.flatMap_cons, hasTransientIo_append, hm, ih, Bool.or_false]

/-- A set-up step whose request, if it makes one, is answered ok. -/
theorem perform_acknowledged {m : Micro} (hm : isSetUp m = true) {s : State} {q : List Micro} {as : List Answer}
    (hanswers : s.answers = List.replicate (requests (m :: q)) .ok ++ as) :
    perform m (s.setSeq q) = { s with seq := q, trace := s.trace ++ microPinEvents m, out := driven [m] s.out,
                                      answers := List.replicate (requests q) .ok ++ as } := by
  cases m with
  | setPin p v => exact performSet_ok (s.setSeq q) p v _ hanswers
  | cfgPin p =>
    rw [perform_cfgPin_ok p (nextAnswer_cons (s.setSeq q) _ _ hanswers),
      dropAnswer_answers_cons (s.setSeq q) _ _ hanswers]
    rfl
  | wait t =>
    have hkept : s.answers = List.replicate (requests q) .ok ++ as := hanswers
    rw [← hkept]
    rfl
  | openDev | warn | release | fatal => cases hm

/-- INITIALIZE's list after its OPEN runs to its end, one step each, and the block is IDLE at (0, 0) (R105, R150). -/
theorem runSteps_acknowledged {q : List Micro} {s : State} {as : List Answer} (hfree : Undisturbed s)
    (hmode : s.mode = .init) (hseq : s.seq = q) (hne : q ≠ []) (hq : ∀ m ∈ q, isSetUp m = true)
    (hanswers : s.answers = List.replicate (requests q) .ok ++ as) :
    runSteps q.length s
      = .next { s with seq := [], mode := .idle, cur := cursorHome, trace := s.trace ++ q.flatMap microPinEvents,
                       out := driven q s.out, answers := as } := by
  induction q generalizing s with
  | nil => exact absurd rfl hne
  | cons m rest ih =>
    obtain ⟨hm, hrest⟩ := List.forall_mem_cons.mp hq
    have hstep : step s = .next (finishIfEmpty (perform m (s.setSeq rest))) := by
      rw [step_running hfree (.inl hmode), runSequencer_cons hseq]
    rw [perform_acknowledged hm hanswers] at hstep
    rw [List.length_cons, runSteps_succ _ hstep, driven_cons m rest, List.flatMap_cons, ← List.append_assoc]
    by_cases hend : rest = []
    · subst hend
      rw [List.flatMap_nil, List.append_nil]
      exact congrArg _ (finishIfEmpty_init rfl hmode)
    · rw [finishIfEmpty_of_ne hend]
      refine (ih ?_ ?_ ?_ hend hrest ?_).trans rfl
      exacts [hfree, hmode, rfl, rfl]

/-- INITIALIZE's whole list, the OPEN included: the device is held as well (R104). -/
theorem runSteps_start {s : State} {dev : Device} {cfg : DisplayConfig} {pins : PinMap} {as : List Answer}
    (hfree : Undisturbed s) (hmode : s.mode = .init) (hseq : s.seq = startMicros s.par dev cfg pins)
    (hanswers : s.answers = List.replicate (requests (startMicros s.par dev cfg pins)) .ok ++ as) :
    runSteps (startMicros s.par dev cfg pins).length s
      = .next { s with
                seq := [], mode := .idle, cur := cursorHome, held := true, answers := as
                trace := s.trace ++ .openDev dev :: (setUpMicros s.par cfg pins).flatMap microPinEvents
                out := driven (setUpMicros s.par cfg pins) s.out } := by
  have hne := setUpMicros_ne_nil s.par cfg pins
  rw [startMicros_eq] at hseq hanswers ⊢
  have hstep : step s = .next (finishIfEmpty (perform (.openDev dev) (s.setSeq (setUpMicros s.par cfg pins)))) := by
    rw [step_running hfree (.inl hmode), runSequencer_cons hseq]
  rw [perform_openDev_ok dev (nextAnswer_cons (s.setSeq (setUpMicros s.par cfg pins)) _ _ hanswers),
    dropAnswer_answers_cons (s.setSeq (setUpMicros s.par cfg pins)) _ _ hanswers, finishIfEmpty_of_ne hne] at hstep
  rw [List.append_cons, List.length_cons, runSteps_succ _ hstep]
  refine (runSteps_acknowledged ?_ ?_ ?_ hne (fun m hm => (setUpMicros_boundSetUp hm).1) ?_).trans rfl
  exacts [hfree, hmode, rfl, rfl]

/-- INITIALIZE from its offer to IDLE, with every answer ok (R150, R151). -/
theorem runSteps_initialize {s : State} {dev : Device} {cfg : DisplayConfig} {pins : PinMap} {rest : List HostOp}
    {as : List Answer} (hfree : Undisturbed s) (hmode : s.mode = .uninit)
    (hoffers : s.offers = .start dev cfg pins :: rest) (hcfg : configValid s.par cfg = true)
    (hpins : pinMapValid s.par pins = true)
    (hanswers : s.answers = List.replicate (requests (startMicros s.par dev cfg pins)) .ok ++ as) :
    runSteps (1 + (startMicros s.par dev cfg pins).length) s
      = .next { s with
                cfg := cfg, pins := pins, curNext := cursorHome, offers := rest, answers := as
                seq := [], mode := .idle, cur := cursorHome, held := true
                trace := s.trace ++ .openDev dev :: (setUpMicros s.par cfg pins).flatMap microPinEvents
                out := driven (setUpMicros s.par cfg pins) s.out } := by
  rw [Nat.add_comm, runSteps_succ _ (step_of_start hfree hmode hoffers hcfg hpins)]
  refine (runSteps_start ?_ ?_ ?_ ?_).trans rfl
  exacts [hfree, rfl, rfl, hanswers]

/-! ### The level of a role's line -/

/-- A list without a SET of a line leaves its level. -/
theorem readLine_driven_of_not_set {q : List Micro} {p : Line} (h : ∀ v, .setPin p v ∉ q) (out : List (Line × Bool)) :
    readLine (driven q out) p = readLine out p := by
  induction q generalizing out with
  | nil => rfl
  | cons m q ih =>
    have hm : readLine (driven [m] out) p = readLine out p := by
      cases m with
      | setPin p' v =>
        refine readLine_putLine_other out v ?_
        rintro rfl
        exact h v List.mem_cons_self
      | openDev | cfgPin | wait | release | warn | fatal => rfl
    rw [driven_cons, ih (fun v hv => h v (List.mem_cons_of_mem m hv)), hm]

@[simp] theorem driven_wait (t : Micros) (q : List Micro) (out : List (Line × Bool)) :
    driven (.wait t :: q) out = driven q out := rfl

@[simp] theorem driven_nil (out : List (Line × Bool)) : driven [] out = out := rfl

@[simp] theorem driven_cfgRole (pins : PinMap) (r : Role) (out : List (Line × Bool)) :
    driven (cfgRole pins r) out = out := by
  unfold cfgRole
  split <;> rfl

@[simp] theorem driven_powerOnWait (par : Params) (out : List (Line × Bool)) : driven (powerOnWait par) out = out := by
  unfold powerOnWait
  split <;> rfl

/-- The level a WRITE leaves on each role's line (R59, R106, R107): E low, the data lines at the lower nibble. No WRITE
drives the backlight. -/
def writeLevel (rs : Bool) (b : Byte) : Role → Bool
  | .regSel => rs
  | .readWrite => false
  | .enable => false
  | .backlight => false
  | .dat0 => b.getLsbD 0
  | .dat1 => b.getLsbD 1
  | .dat2 => b.getLsbD 2
  | .dat3 => b.getLsbD 3

section
variable {par : Params} {cfg : DisplayConfig} {pins : PinMap} {r : Role} {p : Line}
  (hvalid : pinMapValid par pins = true) (hr : lineOf pins r = some p)
include hvalid hr

/-- A SET on a role drives that role's line alone (R23, R101). -/
theorem readLine_driven_setRole (r' : Role) (v : Bool) (out : List (Line × Bool)) :
    readLine (driven (setRole pins r' v) out) p = if r' = r then levelOf v else readLine out p := by
  split
  · next heq =>
    subst heq
    rw [setRole_of_bound hr]
    exact readLine_putLine_same out p v
  · next hne =>
    refine readLine_driven_of_not_set (fun w hw => ?_) out
    obtain ⟨p', hp', hset⟩ := mem_setRole hw
    cases hset
    exact hne (lineOf_inj hvalid hr hp')

/-- After a WRITE each of its lines is at its last level, whatever it was before. -/
theorem readLine_driven_writeMicros (hback : r ≠ .backlight) (rs : Bool) (b : Byte) (out : List (Line × Bool)) :
    readLine (driven (writeMicros par pins rs b) out) p = levelOf (writeLevel rs b r) := by
  have hset := readLine_driven_setRole hvalid hr
  cases r with
  | backlight => exact absurd rfl hback
  | regSel | readWrite | enable | dat0 | dat1 | dat2 | dat3 =>
    simp only [writeMicros, sendNibble, driveNibble, strobe, driven_append, driven_wait, driven_nil, hset, writeLevel,
      reduceCtorEq, if_false, if_true, lowerNibble_getLsbD, Nat.reduceLT]

/-- INITIALIZE's list ends with the WRITE of CLEAR_DISPLAY and its wait, which leaves the levels (R121, R151). -/
theorem readLine_driven_setUpMicros (hback : r ≠ .backlight) (out : List (Line × Bool)) :
    readLine (driven (setUpMicros par cfg pins) out) p = levelOf (writeLevel false par.lcdOp.clearDisplay r) := by
  have hwrite := readLine_driven_writeMicros hvalid hr hback false par.lcdOp.clearDisplay
  simp [setUpMicros, expandReset, clearItems, itemsMicros, itemMicros, hwrite]

end

/-- The backlight's line ends INITIALIZE at its default (R150, D16): RESET's WRITEs do not drive it. -/
theorem readLine_driven_setUpMicros_backlight {par : Params} {cfg : DisplayConfig} {pins : PinMap} {p : Line}
    (hvalid : pinMapValid par pins = true) (hr : lineOf pins .backlight = some p) (out : List (Line × Bool)) :
    readLine (driven (setUpMicros par cfg pins) out) p = levelOf cfg.blDefaultOn := by
  have hset := readLine_driven_setRole hvalid hr
  have hreset : ∀ v, .setPin p v ∉ itemsMicros par pins (expandReset par cfg).items := by
    intro v hv
    obtain ⟨r, hback, hline⟩ := itemsMicros_line hv rfl
    exact hback (lineOf_inj hvalid hr hline)
  rw [setUpMicros, driven_append, readLine_driven_of_not_set hreset, driven_append, driven_powerOnWait, driven_append,
    backlightDefault]
  cases cfg.blDefaultOn <;> simp [roles, setUpRole, hset]

end Sys2Proof.Machine

namespace Sys2Proof.Proofs

open Sys2Proof.Machine

/-- Settles O50: INITIALIZE's run is `runSteps_initialize`; its last WRITE, of 0x01, and the backlight default leave the
levels. -/
theorem startSucceeds : Obligations.StartSucceeds := by
  unfold Obligations.StartSucceeds
  intro s dev cfg pins rest as hfree hmode hoffers hcfg hpins hclear hanswers
  have hlevel : ∀ r, r ≠ .backlight → ∀ p, lineOf pins r = some p →
      readLine (driven (setUpMicros s.par cfg pins) s.out) p = levelOf (writeLevel false 0x01#8 r) := by
    intro r hback p hr
    rw [← hclear]
    exact readLine_driven_setUpMicros hpins hr hback s.out
  refine ⟨_, _, runSteps_initialize hfree hmode hoffers hcfg hpins hanswers, rfl, rfl, rfl, rfl, rfl, rfl, rfl,
    hasTransientIo_flatMap_microPinEvents _, hlevel .readWrite (by simp), fun r hr => ?_, hlevel .dat0 (by simp),
    fun p hp => readLine_driven_setUpMicros_backlight hpins hp s.out⟩
  simp only [List.mem_cons, List.not_mem_nil, or_false] at hr
  obtain rfl | rfl | rfl | rfl | rfl := hr
  all_goals exact hlevel _ (by simp)

end Sys2Proof.Proofs
end

section
/-! The exceptions (60_exceptions.md R170, R174, R176). In FATAL every offer is refused and nothing else moves the block, so
that the host's termination is the only step left. -/

namespace Sys2Proof.Machine

/-- In FATAL no instruction is accepted or issued, RESET included (R176). -/
theorem exec_ne_next_of_fatal {s : State} (hmode : s.mode = .fatal) (i : Instr) (t : State) : exec i s ≠ .next t := by
  intro hexec
  cases hi : i.isCommand with
  | true =>
    obtain ⟨hidle, -⟩ := acceptCommand_cases ((exec_command hi s).symm.trans hexec)
    simp [hmode] at hidle
  | false =>
    obtain ⟨b, hissue⟩ := exec_controller hi s
    obtain ⟨hrunning, -⟩ := issueInstruction_cases (hissue.symm.trans hexec)
    simp [hmode] at hrunning

/-- In FATAL no offer of the host is accepted (R150, R152, R176). -/
theorem acceptOffer_ne_next_of_fatal {s : State} (hmode : s.mode = .fatal) (op : HostOp) (t : State) :
    acceptOffer op s ≠ .next t := by
  intro hoffer
  cases op with
  | start dev cfg pins =>
    obtain ⟨huninit, -⟩ := acceptStart_cases hoffer
    simp [hmode] at huninit
  | command w => exact exec_ne_next_of_fatal hmode (decodeCommand w) t hoffer
  | shutdown =>
    obtain ⟨hidle, -⟩ := acceptShutdown_cases hoffer
    simp [hmode] at hidle

/-- In FATAL the block itself takes no step (R176). -/
theorem advance_ne_next_of_fatal {s : State} (hmode : s.mode = .fatal) (t : State) : advance s ≠ .next t := by
  intro hadvance
  obtain ⟨hrunning, -⟩ | ⟨hwaiting, -, -⟩ | ⟨op, rest, -, -, -, hoffer⟩ := advance_cases hadvance
  · simp [hmode] at hrunning
  · simp [hmode] at hwaiting
  · exact acceptOffer_ne_next_of_fatal (s := { s with offers := rest }) hmode op t hoffer

/-- From FATAL the only step is the host's termination (R153, R176). -/
theorem eq_terminate_of_step_of_fatal {s t : State} (hmode : s.mode = .fatal) (hstep : step s = .next t) :
    t = terminate s := by
  obtain ⟨-, ⟨-, hterm⟩ | ⟨n, -, hadvance⟩ | ⟨-, hadvance⟩⟩ := step_cases hstep
  · exact hterm
  · exact absurd hadvance (advance_ne_next_of_fatal (s := { s with termIn := some n }) hmode t)
  · exact absurd hadvance (advance_ne_next_of_fatal hmode t)

end Sys2Proof.Machine

namespace Sys2Proof.Proofs

open Sys2Proof.Machine

/-- Settles O47: the only step from FATAL is the termination, which keeps the mode; no instruction answers a next state
there; a warning only emits its event. -/
theorem fatalIsTerminal : Obligations.FatalIsTerminal := by
  unfold Obligations.FatalIsTerminal
  refine ⟨fun s t hmode hstep => ?_, fun s t i hmode => exec_ne_next_of_fatal hmode i t,
    fun s w => ⟨raiseWarning_mode w s, raiseWarning_seq w s⟩⟩
  obtain rfl := eq_terminate_of_step_of_fatal hmode hstep
  exact ⟨rfl, (terminate_mode s).trans hmode⟩

/-- Settles O45: fatal entry as a whole next state is `raiseFatal_eq`; the codes are those of `fatalCode`. -/
theorem fatalEntry : Obligations.FatalEntry := by
  unfold Obligations.FatalEntry
  exact ⟨fun s f => raiseFatal_eq f s, fun _ => rfl, fun _ => rfl⟩

end Sys2Proof.Proofs
end

section
/-! What a command leaves alone and how long it takes (70_reset_and_hazards.md R200, R209, R210; 41_commands.md section 1).
A duration is a sum over the items of an expansion: only the WAITs count, and a WRITE holds the same ones on every pin
map. -/

namespace Sys2Proof.Machine

/-! ### Durations -/

/-- The least time a trace stands for is the sum of its parts' (R209). -/
theorem minMicros_append (tr tr' : List Event) : minMicros (tr ++ tr') = minMicros tr + minMicros tr' := by
  induction tr with
  | nil => exact (Nat.zero_add _).symm
  | cons e tr ih =>
    cases e with
    | wait t => simp only [List.cons_append, minMicros, ih, Nat.add_assoc]
    | openDev | cfgPin | setPin | release | warn | fatal => exact ih

theorem microsDuration_append (q q' : List Micro) :
    microsDuration (q ++ q') = microsDuration q + microsDuration q' := by
  rw [microsDuration, List.flatMap_append, minMicros_append]
  rfl

theorem microsDuration_wait (t : Micros) : microsDuration [.wait t] = t := rfl

/-- SET on a role takes no time of its own, bound or not (R102, D1). -/
theorem microsDuration_setRole (pins : PinMap) (r : Role) (v : Bool) : microsDuration (setRole pins r v) = 0 := by
  unfold setRole
  split <;> rfl

/-- The least time of a WRITE: each of its two nibbles is set up, strobed and held (R106, R108). -/
def writeDuration (par : Params) : Micros := 2 * (par.timing.setup + par.timing.strobe + par.timing.hold)

/-- The least time of an item (R209). -/
def itemDuration (par : Params) : Item → Micros
  | .write _ _ => writeDuration par
  | .wait t => t
  | .warn _ => 0

/-- Every WRITE takes the same time, on every pin map and for every byte (R108). -/
theorem microsDuration_writeMicros (par : Params) (pins : PinMap) (rs : Bool) (b : Byte) :
    microsDuration (writeMicros par pins rs b) = writeDuration par := by
  simp only [writeMicros, sendNibble, driveNibble, strobe, microsDuration_append, microsDuration_setRole,
    microsDuration_wait, writeDuration]
  ring

/-- The least time of an expansion is the sum over its items (R209). -/
theorem microsDuration_itemsMicros (par : Params) (pins : PinMap) (items : List Item) :
    microsDuration (itemsMicros par pins items) = (items.map (itemDuration par)).sum := by
  have hitem : ∀ it, microsDuration (itemMicros par pins it) = itemDuration par it := by
    intro it
    cases it with
    | write rs b => exact microsDuration_writeMicros par pins rs b
    | wait | warn => rfl
  induction items with
  | nil => rfl
  | cons it items ih =>
    calc microsDuration (itemsMicros par pins (it :: items))
        = microsDuration (itemMicros par pins it) + microsDuration (itemsMicros par pins items) :=
          microsDuration_append ..
      _ = ((it :: items).map (itemDuration par)).sum := by rw [hitem, ih, List.map_cons, List.sum_cons]

/-! ### The expansions that wait -/

section
variable (par : Params) (cfg : DisplayConfig) (cur : Cursor)

/-- CLEAR_SEQ (R121, R210). -/
theorem sum_itemDuration_clearItems :
    ((clearItems par).map (itemDuration par)).sum = writeDuration par + par.timing.clear := rfl

/-- FLASH_SEQ dwells after each of its four WRITEs (R127, R210; D13). -/
theorem sum_itemDuration_flashItems :
    ((flashItems par cfg).map (itemDuration par)).sum = 4 * (writeDuration par + par.timing.flash) := by
  simp only [flashItems, flashToggle, List.map_append, List.map_cons, List.map_nil, List.sum_append, List.sum_cons,
    List.sum_nil, itemDuration]
  ring

/-- RESET with three function sets (R120, R210; D9, D11). -/
theorem sum_itemDuration_expandReset (h : par.lcdOp.functionSetSeq = [.configured, .configured, .configured]) :
    ((expandReset par cfg).items.map (itemDuration par)).sum
      = 3 * (writeDuration par + par.timing.functionSet) + 3 * (writeDuration par + par.timing.control)
        + (writeDuration par + par.timing.clear) := by
  simp only [expandReset_of_configured h, controlItems, List.map_append, List.map_cons, List.map_nil, List.sum_append,
    List.sum_cons, List.sum_nil, itemDuration, sum_itemDuration_clearItems]
  ring

/-- TAB's spaces take a WRITE's time each (R126, R210). -/
theorem sum_itemDuration_expandTab :
    ((expandTab par cfg cur).items.map (itemDuration par)).sum = tabCount par cfg cur * writeDuration par := by
  rw [expandTab, List.map_replicate, List.sum_replicate, smul_eq_mul]
  rfl

end

/-! ### The backlight -/

/-- On a valid pin map no micro-operation of an expansion addresses the backlight's line (R120, R200, D16). -/
theorem microLine_ne_backlight {par : Params} {pins : PinMap} {items : List Item} {p : Line} {m : Micro}
    (hvalid : pinMapValid par pins = true) (hback : pins.backlight = some p) (hm : m ∈ itemsMicros par pins items) :
    microLine m ≠ some p := by
  intro hline
  obtain ⟨r, hr, hp⟩ := itemsMicros_line hm hline
  exact hr (lineOf_inj hvalid (r := .backlight) hback hp)

end Sys2Proof.Machine

namespace Sys2Proof.Proofs

open Sys2Proof.Machine

/-- Settles O31: each command's items are written out and their times summed, a WRITE's being `writeDuration`. -/
theorem commandDurations : Obligations.CommandDurations := by
  unfold Obligations.CommandDurations
  intro pins cfg cur c p d
  have hd : ∀ i, d i = ((expand specParams cfg cur i).items.map (itemDuration specParams)).sum :=
    fun i => microsDuration_itemsMicros specParams pins _
  have hflash : ((flashItems specParams cfg).map (itemDuration specParams)).sum = 800640 :=
    sum_itemDuration_flashItems specParams cfg
  refine ⟨(hd .reset).trans (sum_itemDuration_expandReset specParams cfg rfl), hd .clear, hd .home, fun hcol => ?_,
    fun hcol => ?_, hd .nl, hd .cr, ?_, (hd .flash).trans hflash, fun hcol => ?_, fun hcol => ?_, hd (.unk p)⟩
  · rw [hd, expand, expandBackspace_left hcol]
    rfl
  · rw [hd, expand, expandBackspace_flash hcol]
    exact hflash
  · rw [hd, expand, sum_itemDuration_expandTab, Nat.mul_comm]
    rfl
  · rw [hd, expand, expandChar_written c hcol]
    rfl
  · rw [hd, expand, expandChar_dropped c hcol]
    rfl

/-- Settles O40: what acceptance puts into `seq` is the command's expansion or nothing. -/
theorem commandsLeaveTheBacklight : Obligations.CommandsLeaveTheBacklight := by
  unfold Obligations.CommandsLeaveTheBacklight
  intro s t i p hvalid hback hi hexec m hm
  obtain ⟨-, ⟨-, rfl⟩ | ⟨-, rfl⟩⟩ := acceptCommand_cases ((exec_command hi s).symm.trans hexec)
  · exact microLine_ne_backlight hvalid hback hm
  · cases hm

end Sys2Proof.Proofs
end
